-- ==== Sys2Proof/Word.lean ====
section
/-! DEFINITION. The word types of the machine (00_scope.md rules R6, R8). -/

namespace Sys2Proof

/-- The 64-bit value of a register, an address, an instruction word (R6, R8, R70). -/
abbrev Word := BitVec 64

/-- One byte of data memory (R40). -/
abbrev Byte := BitVec 8

end Sys2Proof
end

