-- ==== Sys2Proof/Config.lean ====
section
/-! DEFINITION. What a host fixes for a run (the parameters of 00_scope.md rule R7) and the free values,
opaque constants that no proof can evaluate (00_scope.md rule R14, `draw_N()`). -/

namespace Sys2Proof

/-- `HOST_ENDIAN`, `INSN_BYTE_ORDER`, and the target order of a byte swap (R7, R42, R160). -/
inductive Endian where
  | little
  | big
deriving DecidableEq, Repr

/-- `ALIGN_POLICY`: what a plain access at a misaligned address does (R7, R47). -/
inductive AlignPolicy where
  | fault
  | allow
deriving DecidableEq, Repr

/-- `SHIFT_POLICY`: what a shift by the operand width or more gives (R7, R103). -/
inductive ShiftPolicy where
  | unspecified
  | mask
deriving DecidableEq, Repr

/-- `NEG_READING`: which reading of the BPF_NEG row the run takes (R7, R105). -/
inductive NegReading where
  | literal
  | negateDst
deriving DecidableEq, Repr

/-- A region of `MEM` (R55). `content` is the launch content: its bytes, or `none` where it is unconstrained. -/
structure Region where
  base     : Word
  length   : Nat
  readable : Bool
  writable : Bool
  shared   : Bool
  content  : Option (List Byte)
deriving DecidableEq, Repr

/-- A range of addresses that a function's description says the function may change (R221). -/
structure Span where
  base   : Word
  length : Nat
deriving DecidableEq, Repr

/-- What a function reached by BPF_CALL does where its description leaves it wholly free (R221): it returns a value
and changes the listed bytes, or it faults. -/
inductive HelperResult where
  | returns (ret : Word) (writes : List Host.Cell)
  | faults
deriving DecidableEq, Repr, Inhabited

/-- The operations of a function description, on 64-bit values. A comparison gives 1 or 0. -/
inductive HelperOp where
  | add
  | sub
  | mul
  | udiv
  | umod
  | and
  | or
  | xor
  | shl
  | shr
  | eq
  | ult
  | slt
deriving DecidableEq, Repr

/-- A value that a function description computes. `known i` is the i-th value known so far: the arguments in their
order, then what the description has read and drawn. -/
inductive HelperExpr where
  | const (v : Word)
  | known (i : Nat)
  | op (o : HelperOp) (a b : HelperExpr)
deriving DecidableEq, Repr

/-- A function description as plain data (R221): `call(a1..a_nargs, DATA) -> (ret, DATA')` or fault, given by what
it reads of DATA, what it draws, how it decides, and what it writes. A function of the arguments and the bytes it reads
is a tree of tests; a relation is one that draws (DESIGN CHOICE, log 8). -/
inductive HelperCode where
  /-- The byte of DATA at the address becomes the next known value. -/
  | readByte (addr : HelperExpr) (next : HelperCode)
  /-- A free 64-bit value becomes the next known value: "a relation rather than a function". -/
  | drawValue (next : HelperCode)
  /-- The low byte of the value is stored at the address. -/
  | writeByte (addr value : HelperExpr) (next : HelperCode)
  /-- Goes on by whether the value is non-zero. -/
  | test (value : HelperExpr) (nonzero zero : HelperCode)
  /-- The function returns the value. -/
  | returns (ret : HelperExpr)
  /-- The function faults. -/
  | faults
  /-- Anything: the free result `Config.helperDraw`, for what the host leaves open. -/
  | free
deriving DecidableEq, Repr

/-- An entry of `HELPERS` as plain data (R221). `number` is the s32 function number as its 32-bit pattern; `mayWrite`
is where the description says that the function may change DATA. -/
structure Helper where
  number   : BitVec 32
  nargs    : Fin 6
  mayWrite : List Span
  body     : HelperCode
deriving DecidableEq, Repr

/-- The parameters of R7 that a step reads. No instruction changes them (R20). -/
structure Params where
  hostEndian  : Endian
  alignPolicy : AlignPolicy
  shiftPolicy : ShiftPolicy
  negReading  : NegReading
  program     : List Word
  regions     : List Region
  helpers     : List Helper
deriving DecidableEq, Repr

/-- `draw_N()`, the free N-bit value that the k-th draw of a run gives (R14, R103, R44). That two runs have the same
k-th draw is the model's choice (DESIGN CHOICE, log 5, unsafe for a claim that compares two runs). -/
opaque Config.draw (n : Nat) (k : Nat) : BitVec n

/-- The unconstrained launch content of the byte at an address (R56, R332), the same at every read. It is one constant
for all launches: that two runs have the same content where nothing was written is the model's choice, since R332
leaves the content of each launch unconstrained (DESIGN CHOICE, log 6, unsafe for a claim that compares two runs). -/
opaque Config.launchByte (a : Nat) : Byte

/-- The free result of a called function whose description leaves it open: of its number, the values known to the
description, the data memory and the draw (R221; log 8). As for `Config.draw`, two runs that agree on all of these have
the same result (log 8, unsafe for a claim that compares two runs). -/
opaque Config.helperDraw (number : BitVec 32) (known : List Word) (data : List Host.Cell) (k : Nat) : HelperResult

end Sys2Proof
end

