-- ==== Sys2Proof/Machine/Bytes.lean ====
section
/-! DEFINITION. Access sizes and byte order (20_memory.md rules R42, R43, R51). -/

namespace Sys2Proof

/-- The size modifier of a load or store (R51, R76). -/
inductive Size where
  | b
  | h
  | w
  | dw
deriving DecidableEq, Repr

/-- The number of bytes a size moves (R51). -/
def Size.bytes : Size → Nat
  | .b => 1
  | .h => 2
  | .w => 4
  | .dw => 8

/-- The number whose bytes, least significant first, are the list. -/
def leNat : List Byte → Nat
  | [] => 0
  | b :: bs => b.toNat + 256 * leNat bs

/-- The `n` low bytes of a number, least significant first. -/
def leBytes : Nat → Nat → List Byte
  | 0, _ => []
  | n + 1, v => BitVec.ofNat 8 v :: leBytes n (v / 256)

/-- The value of bytes listed from the lowest address, zero-extended to 64 bits (R42, R44). -/
def joinBytes (e : Endian) (bs : List Byte) : Word :=
  match e with
  | .little => BitVec.ofNat 64 (leNat bs)
  | .big => BitVec.ofNat 64 (leNat bs.reverse)

/-- The `n` low bytes of a value, listed from the lowest address (R42, R45). -/
def splitBytes (e : Endian) (n : Nat) (v : Word) : List Byte :=
  match e with
  | .little => leBytes n v.toNat
  | .big => (leBytes n v.toNat).reverse

/-- `trunc` of a value to `n` bytes, zero-extended to 64 bits (R10, R232). -/
def lowBytes (n : Nat) (v : Word) : Word := BitVec.ofNat 64 (v.toNat % 256 ^ n)

/-- `bswap` of the `n` low bytes of a value, zero-extended to 64 bits (R11). -/
def swapBytes (n : Nat) (v : Word) : Word := BitVec.ofNat 64 (leNat (leBytes n v.toNat).reverse)

end Sys2Proof
end

