-- ==== Sys2Proof/Syntax.lean ====
section
/-! DEFINITION. Registers and instructions: one constructor of `Instr` per row of spec/opcode_table.json.
A register an instruction writes has the type `GReg` (R0 to R9), so that a write to the read-only R10 cannot be
written down (10_state.md rules R12, R25; the decoder refuses such a word, 30_encoding.md rule R86). -/

namespace Sys2Proof

/-- The ten general purpose registers R0 to R9: the registers an instruction may write (R21, R25). -/
inductive GReg where
  | r0 | r1 | r2 | r3 | r4 | r5 | r6 | r7 | r8 | r9
deriving DecidableEq, Repr

/-- A register an instruction may read: R0 to R9, or the read-only frame pointer R10 (R21, R25). -/
inductive Reg where
  | gpr (g : GReg)
  | r10
deriving DecidableEq, Repr

/-- Why a word spells no instruction the spec gives a meaning: the ten kinds of 60_exceptions.md rule R305. -/
inductive RefusalKind where
  /-- The opcode spells nothing (R84, R85). -/
  | illegalOpcode
  /-- A deprecated packet access opcode (R282, R283). -/
  | legacyPacketAccess
  /-- A must-be-zero field holds a non-zero bit (R82). -/
  | nonzeroUnusedField
  /-- A used register field holds 11 to 15 (R83). -/
  | badRegister
  /-- The field of a written register holds 10 (R86). -/
  | writeToR10
  /-- A byte swap whose imm is not 16, 32 or 64 (R160). -/
  | badSwapWidth
  /-- An atomic operation whose imm is not one of the ten values (R250). -/
  | badAtomicOp
  /-- Opcode 0x18 in the last slot (R88). -/
  | truncatedWideInstruction
  /-- Opcode 0x18 followed by a word whose low 32 bits are not zero (R88). -/
  | badPseudoInstruction
  /-- Opcode 0x18 with a non-zero src_reg (R88). -/
  | unsupportedImm64Kind
deriving DecidableEq, Repr

/-- The instructions: the 146 rows of spec/opcode_table.json. `K` ends the BPF_K form of a mnemonic with two rows,
`X` its BPF_X form (R75, R80). -/
inductive Instr where
  /-- `add32 rD, imm`, opcode 0x04 (R108). -/
  | add32K (dst : GReg) (imm : BitVec 32)
  /-- `add32 rD, rS`, opcode 0x0c (R109). -/
  | add32X (dst : GReg) (src : Reg)
  /-- `add64 rD, imm`, opcode 0x07 (R110). -/
  | add64K (dst : GReg) (imm : BitVec 32)
  /-- `add64 rD, rS`, opcode 0x0f (R111). -/
  | add64X (dst : GReg) (src : Reg)
  /-- `sub32 rD, imm`, opcode 0x14 (R112). -/
  | sub32K (dst : GReg) (imm : BitVec 32)
  /-- `sub32 rD, rS`, opcode 0x1c (R113). -/
  | sub32X (dst : GReg) (src : Reg)
  /-- `sub64 rD, imm`, opcode 0x17 (R114). -/
  | sub64K (dst : GReg) (imm : BitVec 32)
  /-- `sub64 rD, rS`, opcode 0x1f (R115). -/
  | sub64X (dst : GReg) (src : Reg)
  /-- `mul32 rD, imm`, opcode 0x24 (R116). -/
  | mul32K (dst : GReg) (imm : BitVec 32)
  /-- `mul32 rD, rS`, opcode 0x2c (R117). -/
  | mul32X (dst : GReg) (src : Reg)
  /-- `mul64 rD, imm`, opcode 0x27 (R118). -/
  | mul64K (dst : GReg) (imm : BitVec 32)
  /-- `mul64 rD, rS`, opcode 0x2f (R119). -/
  | mul64X (dst : GReg) (src : Reg)
  /-- `div32 rD, imm`, opcode 0x34 (R120). -/
  | div32K (dst : GReg) (imm : BitVec 32)
  /-- `div32 rD, rS`, opcode 0x3c (R121). -/
  | div32X (dst : GReg) (src : Reg)
  /-- `div64 rD, imm`, opcode 0x37 (R122). -/
  | div64K (dst : GReg) (imm : BitVec 32)
  /-- `div64 rD, rS`, opcode 0x3f (R123). -/
  | div64X (dst : GReg) (src : Reg)
  /-- `or32 rD, imm`, opcode 0x44 (R124). -/
  | or32K (dst : GReg) (imm : BitVec 32)
  /-- `or32 rD, rS`, opcode 0x4c (R125). -/
  | or32X (dst : GReg) (src : Reg)
  /-- `or64 rD, imm`, opcode 0x47 (R126). -/
  | or64K (dst : GReg) (imm : BitVec 32)
  /-- `or64 rD, rS`, opcode 0x4f (R127). -/
  | or64X (dst : GReg) (src : Reg)
  /-- `and32 rD, imm`, opcode 0x54 (R128). -/
  | and32K (dst : GReg) (imm : BitVec 32)
  /-- `and32 rD, rS`, opcode 0x5c (R129). -/
  | and32X (dst : GReg) (src : Reg)
  /-- `and64 rD, imm`, opcode 0x57 (R130). -/
  | and64K (dst : GReg) (imm : BitVec 32)
  /-- `and64 rD, rS`, opcode 0x5f (R131). -/
  | and64X (dst : GReg) (src : Reg)
  /-- `lsh32 rD, imm`, opcode 0x64 (R132). -/
  | lsh32K (dst : GReg) (imm : BitVec 32)
  /-- `lsh32 rD, rS`, opcode 0x6c (R133). -/
  | lsh32X (dst : GReg) (src : Reg)
  /-- `lsh64 rD, imm`, opcode 0x67 (R134). -/
  | lsh64K (dst : GReg) (imm : BitVec 32)
  /-- `lsh64 rD, rS`, opcode 0x6f (R135). -/
  | lsh64X (dst : GReg) (src : Reg)
  /-- `rsh32 rD, imm`, opcode 0x74 (R136). -/
  | rsh32K (dst : GReg) (imm : BitVec 32)
  /-- `rsh32 rD, rS`, opcode 0x7c (R137). -/
  | rsh32X (dst : GReg) (src : Reg)
  /-- `rsh64 rD, imm`, opcode 0x77 (R138). -/
  | rsh64K (dst : GReg) (imm : BitVec 32)
  /-- `rsh64 rD, rS`, opcode 0x7f (R139). -/
  | rsh64X (dst : GReg) (src : Reg)
  /-- `neg32 rD, imm`, opcode 0x84 (R140). -/
  | neg32K (dst : GReg) (imm : BitVec 32)
  /-- `neg32 rD, rS`, opcode 0x8c (R141). -/
  | neg32X (dst : GReg) (src : Reg)
  /-- `neg64 rD, imm`, opcode 0x87 (R142). -/
  | neg64K (dst : GReg) (imm : BitVec 32)
  /-- `neg64 rD, rS`, opcode 0x8f (R143). -/
  | neg64X (dst : GReg) (src : Reg)
  /-- `mod32 rD, imm`, opcode 0x94 (R144). -/
  | mod32K (dst : GReg) (imm : BitVec 32)
  /-- `mod32 rD, rS`, opcode 0x9c (R145). -/
  | mod32X (dst : GReg) (src : Reg)
  /-- `mod64 rD, imm`, opcode 0x97 (R146). -/
  | mod64K (dst : GReg) (imm : BitVec 32)
  /-- `mod64 rD, rS`, opcode 0x9f (R147). -/
  | mod64X (dst : GReg) (src : Reg)
  /-- `xor32 rD, imm`, opcode 0xa4 (R148). -/
  | xor32K (dst : GReg) (imm : BitVec 32)
  /-- `xor32 rD, rS`, opcode 0xac (R149). -/
  | xor32X (dst : GReg) (src : Reg)
  /-- `xor64 rD, imm`, opcode 0xa7 (R150). -/
  | xor64K (dst : GReg) (imm : BitVec 32)
  /-- `xor64 rD, rS`, opcode 0xaf (R151). -/
  | xor64X (dst : GReg) (src : Reg)
  /-- `mov32 rD, imm`, opcode 0xb4 (R152). -/
  | mov32K (dst : GReg) (imm : BitVec 32)
  /-- `mov32 rD, rS`, opcode 0xbc (R153). -/
  | mov32X (dst : GReg) (src : Reg)
  /-- `mov64 rD, imm`, opcode 0xb7 (R154). -/
  | mov64K (dst : GReg) (imm : BitVec 32)
  /-- `mov64 rD, rS`, opcode 0xbf (R155). -/
  | mov64X (dst : GReg) (src : Reg)
  /-- `arsh32 rD, imm`, opcode 0xc4 (R156). -/
  | arsh32K (dst : GReg) (imm : BitVec 32)
  /-- `arsh32 rD, rS`, opcode 0xcc (R157). -/
  | arsh32X (dst : GReg) (src : Reg)
  /-- `arsh64 rD, imm`, opcode 0xc7 (R158). -/
  | arsh64K (dst : GReg) (imm : BitVec 32)
  /-- `arsh64 rD, rS`, opcode 0xcf (R159). -/
  | arsh64X (dst : GReg) (src : Reg)
  /-- `le16 rD`, opcode 0xd4 (R163). -/
  | le16 (dst : GReg)
  /-- `le32 rD`, opcode 0xd4 (R164). -/
  | le32 (dst : GReg)
  /-- `le64 rD`, opcode 0xd4 (R165). -/
  | le64 (dst : GReg)
  /-- `be16 rD`, opcode 0xdc (R166). -/
  | be16 (dst : GReg)
  /-- `be32 rD`, opcode 0xdc (R167). -/
  | be32 (dst : GReg)
  /-- `be64 rD`, opcode 0xdc (R168). -/
  | be64 (dst : GReg)
  /-- `ja +n`, opcode 0x05 (R172). -/
  | ja (off : BitVec 16)
  /-- `jeq rD, imm, +n`, opcode 0x15 (R175). -/
  | jeqK (dst : Reg) (imm : BitVec 32) (off : BitVec 16)
  /-- `jeq rD, rS, +n`, opcode 0x1d (R176). -/
  | jeqX (dst src : Reg) (off : BitVec 16)
  /-- `jeq32 rD, imm, +n`, opcode 0x16 (R177). -/
  | jeq32K (dst : Reg) (imm : BitVec 32) (off : BitVec 16)
  /-- `jeq32 rD, rS, +n`, opcode 0x1e (R178). -/
  | jeq32X (dst src : Reg) (off : BitVec 16)
  /-- `jgt rD, imm, +n`, opcode 0x25 (R179). -/
  | jgtK (dst : Reg) (imm : BitVec 32) (off : BitVec 16)
  /-- `jgt rD, rS, +n`, opcode 0x2d (R180). -/
  | jgtX (dst src : Reg) (off : BitVec 16)
  /-- `jgt32 rD, imm, +n`, opcode 0x26 (R181). -/
  | jgt32K (dst : Reg) (imm : BitVec 32) (off : BitVec 16)
  /-- `jgt32 rD, rS, +n`, opcode 0x2e (R182). -/
  | jgt32X (dst src : Reg) (off : BitVec 16)
  /-- `jge rD, imm, +n`, opcode 0x35 (R183). -/
  | jgeK (dst : Reg) (imm : BitVec 32) (off : BitVec 16)
  /-- `jge rD, rS, +n`, opcode 0x3d (R184). -/
  | jgeX (dst src : Reg) (off : BitVec 16)
  /-- `jge32 rD, imm, +n`, opcode 0x36 (R185). -/
  | jge32K (dst : Reg) (imm : BitVec 32) (off : BitVec 16)
  /-- `jge32 rD, rS, +n`, opcode 0x3e (R186). -/
  | jge32X (dst src : Reg) (off : BitVec 16)
  /-- `jset rD, imm, +n`, opcode 0x45 (R187). -/
  | jsetK (dst : Reg) (imm : BitVec 32) (off : BitVec 16)
  /-- `jset rD, rS, +n`, opcode 0x4d (R188). -/
  | jsetX (dst src : Reg) (off : BitVec 16)
  /-- `jset32 rD, imm, +n`, opcode 0x46 (R189). -/
  | jset32K (dst : Reg) (imm : BitVec 32) (off : BitVec 16)
  /-- `jset32 rD, rS, +n`, opcode 0x4e (R190). -/
  | jset32X (dst src : Reg) (off : BitVec 16)
  /-- `jne rD, imm, +n`, opcode 0x55 (R191). -/
  | jneK (dst : Reg) (imm : BitVec 32) (off : BitVec 16)
  /-- `jne rD, rS, +n`, opcode 0x5d (R192). -/
  | jneX (dst src : Reg) (off : BitVec 16)
  /-- `jne32 rD, imm, +n`, opcode 0x56 (R193). -/
  | jne32K (dst : Reg) (imm : BitVec 32) (off : BitVec 16)
  /-- `jne32 rD, rS, +n`, opcode 0x5e (R194). -/
  | jne32X (dst src : Reg) (off : BitVec 16)
  /-- `jsgt rD, imm, +n`, opcode 0x65 (R195). -/
  | jsgtK (dst : Reg) (imm : BitVec 32) (off : BitVec 16)
  /-- `jsgt rD, rS, +n`, opcode 0x6d (R196). -/
  | jsgtX (dst src : Reg) (off : BitVec 16)
  /-- `jsgt32 rD, imm, +n`, opcode 0x66 (R197). -/
  | jsgt32K (dst : Reg) (imm : BitVec 32) (off : BitVec 16)
  /-- `jsgt32 rD, rS, +n`, opcode 0x6e (R198). -/
  | jsgt32X (dst src : Reg) (off : BitVec 16)
  /-- `jsge rD, imm, +n`, opcode 0x75 (R199). -/
  | jsgeK (dst : Reg) (imm : BitVec 32) (off : BitVec 16)
  /-- `jsge rD, rS, +n`, opcode 0x7d (R200). -/
  | jsgeX (dst src : Reg) (off : BitVec 16)
  /-- `jsge32 rD, imm, +n`, opcode 0x76 (R201). -/
  | jsge32K (dst : Reg) (imm : BitVec 32) (off : BitVec 16)
  /-- `jsge32 rD, rS, +n`, opcode 0x7e (R202). -/
  | jsge32X (dst src : Reg) (off : BitVec 16)
  /-- `jlt rD, imm, +n`, opcode 0xa5 (R203). -/
  | jltK (dst : Reg) (imm : BitVec 32) (off : BitVec 16)
  /-- `jlt rD, rS, +n`, opcode 0xad (R204). -/
  | jltX (dst src : Reg) (off : BitVec 16)
  /-- `jlt32 rD, imm, +n`, opcode 0xa6 (R205). -/
  | jlt32K (dst : Reg) (imm : BitVec 32) (off : BitVec 16)
  /-- `jlt32 rD, rS, +n`, opcode 0xae (R206). -/
  | jlt32X (dst src : Reg) (off : BitVec 16)
  /-- `jle rD, imm, +n`, opcode 0xb5 (R207). -/
  | jleK (dst : Reg) (imm : BitVec 32) (off : BitVec 16)
  /-- `jle rD, rS, +n`, opcode 0xbd (R208). -/
  | jleX (dst src : Reg) (off : BitVec 16)
  /-- `jle32 rD, imm, +n`, opcode 0xb6 (R209). -/
  | jle32K (dst : Reg) (imm : BitVec 32) (off : BitVec 16)
  /-- `jle32 rD, rS, +n`, opcode 0xbe (R210). -/
  | jle32X (dst src : Reg) (off : BitVec 16)
  /-- `jslt rD, imm, +n`, opcode 0xc5 (R211). -/
  | jsltK (dst : Reg) (imm : BitVec 32) (off : BitVec 16)
  /-- `jslt rD, rS, +n`, opcode 0xcd (R212). -/
  | jsltX (dst src : Reg) (off : BitVec 16)
  /-- `jslt32 rD, imm, +n`, opcode 0xc6 (R213). -/
  | jslt32K (dst : Reg) (imm : BitVec 32) (off : BitVec 16)
  /-- `jslt32 rD, rS, +n`, opcode 0xce (R214). -/
  | jslt32X (dst src : Reg) (off : BitVec 16)
  /-- `jsle rD, imm, +n`, opcode 0xd5 (R215). -/
  | jsleK (dst : Reg) (imm : BitVec 32) (off : BitVec 16)
  /-- `jsle rD, rS, +n`, opcode 0xdd (R216). -/
  | jsleX (dst src : Reg) (off : BitVec 16)
  /-- `jsle32 rD, imm, +n`, opcode 0xd6 (R217). -/
  | jsle32K (dst : Reg) (imm : BitVec 32) (off : BitVec 16)
  /-- `jsle32 rD, rS, +n`, opcode 0xde (R218). -/
  | jsle32X (dst src : Reg) (off : BitVec 16)
  /-- `call imm`, opcode 0x85 (R224). -/
  | call (imm : BitVec 32)
  /-- `exit`, opcode 0x95 (R225). -/
  | exit
  /-- `stxw [rD+off], rS`, opcode 0x63 (R234). -/
  | stxw (dst src : Reg) (off : BitVec 16)
  /-- `stxh [rD+off], rS`, opcode 0x6b (R235). -/
  | stxh (dst src : Reg) (off : BitVec 16)
  /-- `stxb [rD+off], rS`, opcode 0x73 (R236). -/
  | stxb (dst src : Reg) (off : BitVec 16)
  /-- `stxdw [rD+off], rS`, opcode 0x7b (R237). -/
  | stxdw (dst src : Reg) (off : BitVec 16)
  /-- `stw [rD+off], imm`, opcode 0x62 (R238). -/
  | stw (dst : Reg) (off : BitVec 16) (imm : BitVec 32)
  /-- `sth [rD+off], imm`, opcode 0x6a (R239). -/
  | sth (dst : Reg) (off : BitVec 16) (imm : BitVec 32)
  /-- `stb [rD+off], imm`, opcode 0x72 (R240). -/
  | stb (dst : Reg) (off : BitVec 16) (imm : BitVec 32)
  /-- `stdw [rD+off], imm`, opcode 0x7a (R241). -/
  | stdw (dst : Reg) (off : BitVec 16) (imm : BitVec 32)
  /-- `ldxw rD, [rS+off]`, opcode 0x61 (R242). -/
  | ldxw (dst : GReg) (src : Reg) (off : BitVec 16)
  /-- `ldxh rD, [rS+off]`, opcode 0x69 (R243). -/
  | ldxh (dst : GReg) (src : Reg) (off : BitVec 16)
  /-- `ldxb rD, [rS+off]`, opcode 0x71 (R244). -/
  | ldxb (dst : GReg) (src : Reg) (off : BitVec 16)
  /-- `ldxdw rD, [rS+off]`, opcode 0x79 (R245). -/
  | ldxdw (dst : GReg) (src : Reg) (off : BitVec 16)
  /-- `atomic_add32 [rD+off], rS`, opcode 0xc3 (R254). -/
  | atomicAdd32 (dst src : Reg) (off : BitVec 16)
  /-- `atomic_add64 [rD+off], rS`, opcode 0xdb (R255). -/
  | atomicAdd64 (dst src : Reg) (off : BitVec 16)
  /-- `atomic_or32 [rD+off], rS`, opcode 0xc3 (R256). -/
  | atomicOr32 (dst src : Reg) (off : BitVec 16)
  /-- `atomic_or64 [rD+off], rS`, opcode 0xdb (R257). -/
  | atomicOr64 (dst src : Reg) (off : BitVec 16)
  /-- `atomic_and32 [rD+off], rS`, opcode 0xc3 (R258). -/
  | atomicAnd32 (dst src : Reg) (off : BitVec 16)
  /-- `atomic_and64 [rD+off], rS`, opcode 0xdb (R259). -/
  | atomicAnd64 (dst src : Reg) (off : BitVec 16)
  /-- `atomic_xor32 [rD+off], rS`, opcode 0xc3 (R260). -/
  | atomicXor32 (dst src : Reg) (off : BitVec 16)
  /-- `atomic_xor64 [rD+off], rS`, opcode 0xdb (R261). -/
  | atomicXor64 (dst src : Reg) (off : BitVec 16)
  /-- `atomic_fetch_add32 [rD+off], rS`, opcode 0xc3 (R262). -/
  | atomicFetchAdd32 (dst : Reg) (src : GReg) (off : BitVec 16)
  /-- `atomic_fetch_add64 [rD+off], rS`, opcode 0xdb (R263). -/
  | atomicFetchAdd64 (dst : Reg) (src : GReg) (off : BitVec 16)
  /-- `atomic_fetch_or32 [rD+off], rS`, opcode 0xc3 (R264). -/
  | atomicFetchOr32 (dst : Reg) (src : GReg) (off : BitVec 16)
  /-- `atomic_fetch_or64 [rD+off], rS`, opcode 0xdb (R265). -/
  | atomicFetchOr64 (dst : Reg) (src : GReg) (off : BitVec 16)
  /-- `atomic_fetch_and32 [rD+off], rS`, opcode 0xc3 (R266). -/
  | atomicFetchAnd32 (dst : Reg) (src : GReg) (off : BitVec 16)
  /-- `atomic_fetch_and64 [rD+off], rS`, opcode 0xdb (R267). -/
  | atomicFetchAnd64 (dst : Reg) (src : GReg) (off : BitVec 16)
  /-- `atomic_fetch_xor32 [rD+off], rS`, opcode 0xc3 (R268). -/
  | atomicFetchXor32 (dst : Reg) (src : GReg) (off : BitVec 16)
  /-- `atomic_fetch_xor64 [rD+off], rS`, opcode 0xdb (R269). -/
  | atomicFetchXor64 (dst : Reg) (src : GReg) (off : BitVec 16)
  /-- `atomic_xchg32 [rD+off], rS`, opcode 0xc3 (R270). -/
  | atomicXchg32 (dst : Reg) (src : GReg) (off : BitVec 16)
  /-- `atomic_xchg64 [rD+off], rS`, opcode 0xdb (R271). -/
  | atomicXchg64 (dst : Reg) (src : GReg) (off : BitVec 16)
  /-- `atomic_cmpxchg32 [rD+off], rS`, opcode 0xc3 (R272). -/
  | atomicCmpxchg32 (dst src : Reg) (off : BitVec 16)
  /-- `atomic_cmpxchg64 [rD+off], rS`, opcode 0xdb (R273). -/
  | atomicCmpxchg64 (dst src : Reg) (off : BitVec 16)
  /-- `lddw rD, imm64`, opcode 0x18 (R280). -/
  | lddw (dst : GReg) (imm64 : Word)
  /-- `ldabsw`, opcode 0x20 (R282). -/
  | ldabsw (rest : BitVec 56)
  /-- `ldabsh`, opcode 0x28 (R282). -/
  | ldabsh (rest : BitVec 56)
  /-- `ldabsb`, opcode 0x30 (R282). -/
  | ldabsb (rest : BitVec 56)
  /-- `ldabsdw`, opcode 0x38 (R282). -/
  | ldabsdw (rest : BitVec 56)
  /-- `ldindw`, opcode 0x40 (R283). -/
  | ldindw (rest : BitVec 56)
  /-- `ldindh`, opcode 0x48 (R283). -/
  | ldindh (rest : BitVec 56)
  /-- `ldindb`, opcode 0x50 (R283). -/
  | ldindb (rest : BitVec 56)
  /-- `ldinddw`, opcode 0x58 (R283). -/
  | ldinddw (rest : BitVec 56)
deriving DecidableEq, Repr

end Sys2Proof
end

