-- ==== Sys2Proof/WellFormed.lean ====
section
/-! DEFINITION. Which instructions a run admits. The types of `Instr` already carry the register ranges (R83, R86),
the byte swap widths (R160) and the atomic operations (R250); what is left is the reading of BPF_NEG (R105). -/

namespace Sys2Proof

/-- Whether the run admits the instruction. Under `NEG_READING = negate_dst` BPF_NEG has no BPF_X form and its imm
must be zero (40_alu.md rule R105); every other instruction is admitted under both readings. -/
def Instr.wellFormed (neg : NegReading) : Instr → Bool
  | .add32K _ _ => true
  | .add32X _ _ => true
  | .add64K _ _ => true
  | .add64X _ _ => true
  | .sub32K _ _ => true
  | .sub32X _ _ => true
  | .sub64K _ _ => true
  | .sub64X _ _ => true
  | .mul32K _ _ => true
  | .mul32X _ _ => true
  | .mul64K _ _ => true
  | .mul64X _ _ => true
  | .div32K _ _ => true
  | .div32X _ _ => true
  | .div64K _ _ => true
  | .div64X _ _ => true
  | .or32K _ _ => true
  | .or32X _ _ => true
  | .or64K _ _ => true
  | .or64X _ _ => true
  | .and32K _ _ => true
  | .and32X _ _ => true
  | .and64K _ _ => true
  | .and64X _ _ => true
  | .lsh32K _ _ => true
  | .lsh32X _ _ => true
  | .lsh64K _ _ => true
  | .lsh64X _ _ => true
  | .rsh32K _ _ => true
  | .rsh32X _ _ => true
  | .rsh64K _ _ => true
  | .rsh64X _ _ => true
  | .neg32K _ imm => decide (neg = .literal) || decide (imm = 0)
  | .neg32X _ _ => decide (neg = .literal)
  | .neg64K _ imm => decide (neg = .literal) || decide (imm = 0)
  | .neg64X _ _ => decide (neg = .literal)
  | .mod32K _ _ => true
  | .mod32X _ _ => true
  | .mod64K _ _ => true
  | .mod64X _ _ => true
  | .xor32K _ _ => true
  | .xor32X _ _ => true
  | .xor64K _ _ => true
  | .xor64X _ _ => true
  | .mov32K _ _ => true
  | .mov32X _ _ => true
  | .mov64K _ _ => true
  | .mov64X _ _ => true
  | .arsh32K _ _ => true
  | .arsh32X _ _ => true
  | .arsh64K _ _ => true
  | .arsh64X _ _ => true
  | .le16 _ => true
  | .le32 _ => true
  | .le64 _ => true
  | .be16 _ => true
  | .be32 _ => true
  | .be64 _ => true
  | .ja _ => true
  | .jeqK _ _ _ => true
  | .jeqX _ _ _ => true
  | .jeq32K _ _ _ => true
  | .jeq32X _ _ _ => true
  | .jgtK _ _ _ => true
  | .jgtX _ _ _ => true
  | .jgt32K _ _ _ => true
  | .jgt32X _ _ _ => true
  | .jgeK _ _ _ => true
  | .jgeX _ _ _ => true
  | .jge32K _ _ _ => true
  | .jge32X _ _ _ => true
  | .jsetK _ _ _ => true
  | .jsetX _ _ _ => true
  | .jset32K _ _ _ => true
  | .jset32X _ _ _ => true
  | .jneK _ _ _ => true
  | .jneX _ _ _ => true
  | .jne32K _ _ _ => true
  | .jne32X _ _ _ => true
  | .jsgtK _ _ _ => true
  | .jsgtX _ _ _ => true
  | .jsgt32K _ _ _ => true
  | .jsgt32X _ _ _ => true
  | .jsgeK _ _ _ => true
  | .jsgeX _ _ _ => true
  | .jsge32K _ _ _ => true
  | .jsge32X _ _ _ => true
  | .jltK _ _ _ => true
  | .jltX _ _ _ => true
  | .jlt32K _ _ _ => true
  | .jlt32X _ _ _ => true
  | .jleK _ _ _ => true
  | .jleX _ _ _ => true
  | .jle32K _ _ _ => true
  | .jle32X _ _ _ => true
  | .jsltK _ _ _ => true
  | .jsltX _ _ _ => true
  | .jslt32K _ _ _ => true
  | .jslt32X _ _ _ => true
  | .jsleK _ _ _ => true
  | .jsleX _ _ _ => true
  | .jsle32K _ _ _ => true
  | .jsle32X _ _ _ => true
  | .call _ => true
  | .exit => true
  | .stxw _ _ _ => true
  | .stxh _ _ _ => true
  | .stxb _ _ _ => true
  | .stxdw _ _ _ => true
  | .stw _ _ _ => true
  | .sth _ _ _ => true
  | .stb _ _ _ => true
  | .stdw _ _ _ => true
  | .ldxw _ _ _ => true
  | .ldxh _ _ _ => true
  | .ldxb _ _ _ => true
  | .ldxdw _ _ _ => true
  | .atomicAdd32 _ _ _ => true
  | .atomicAdd64 _ _ _ => true
  | .atomicOr32 _ _ _ => true
  | .atomicOr64 _ _ _ => true
  | .atomicAnd32 _ _ _ => true
  | .atomicAnd64 _ _ _ => true
  | .atomicXor32 _ _ _ => true
  | .atomicXor64 _ _ _ => true
  | .atomicFetchAdd32 _ _ _ => true
  | .atomicFetchAdd64 _ _ _ => true
  | .atomicFetchOr32 _ _ _ => true
  | .atomicFetchOr64 _ _ _ => true
  | .atomicFetchAnd32 _ _ _ => true
  | .atomicFetchAnd64 _ _ _ => true
  | .atomicFetchXor32 _ _ _ => true
  | .atomicFetchXor64 _ _ _ => true
  | .atomicXchg32 _ _ _ => true
  | .atomicXchg64 _ _ _ => true
  | .atomicCmpxchg32 _ _ _ => true
  | .atomicCmpxchg64 _ _ _ => true
  | .lddw _ _ => true
  | .ldabsw _ => true
  | .ldabsh _ => true
  | .ldabsb _ => true
  | .ldabsdw _ => true
  | .ldindw _ => true
  | .ldindh _ => true
  | .ldindb _ => true
  | .ldinddw _ => true

end Sys2Proof
end

