-- ==== Sys2Proof/Decode.lean ====
section
/-! DEFINITION. Decoding an instruction from its words, total, each refusal by its name (30_encoding.md rule R81), and
the encoder written from the same tables (R70, R79, R80). -/

namespace Sys2Proof

/-- The five fields of the basic instruction encoding (R70). -/
structure Fields where
  imm    : BitVec 32
  off    : BitVec 16
  src    : BitVec 4
  dst    : BitVec 4
  opcode : BitVec 8
deriving DecidableEq, Repr

/-- The fields of a word: imm 63:32, offset 31:16, src_reg 15:12, dst_reg 11:8, opcode 7:0 (R70). -/
def Fields.ofWord (w : Word) : Fields where
  imm    := w.extractLsb' 32 32
  off    := w.extractLsb' 16 16
  src    := w.extractLsb' 12 4
  dst    := w.extractLsb' 8 4
  opcode := w.extractLsb' 0 8

/-- The word with these fields: `imm ++ offset ++ src_reg ++ dst_reg ++ opcode` (R70). -/
def Fields.toWord (f : Fields) : Word := f.imm ++ f.off ++ f.src ++ f.dst ++ f.opcode

/-- The general purpose register with a number, if it is 0 to 9 (R21). -/
def gregOfNumber : Nat → Option GReg
  | 0 => some .r0
  | 1 => some .r1
  | 2 => some .r2
  | 3 => some .r3
  | 4 => some .r4
  | 5 => some .r5
  | 6 => some .r6
  | 7 => some .r7
  | 8 => some .r8
  | 9 => some .r9
  | _ => none

/-- The number of a general purpose register (R21). -/
def gregNumber : GReg → Nat
  | .r0 => 0
  | .r1 => 1
  | .r2 => 2
  | .r3 => 3
  | .r4 => 4
  | .r5 => 5
  | .r6 => 6
  | .r7 => 7
  | .r8 => 8
  | .r9 => 9

/-- The register a 4-bit field names: 0 to 10; 11 to 15 name none (R83). -/
def regOfField (b : BitVec 4) : Option Reg :=
  if b = 10 then some .r10 else (gregOfNumber b.toNat).map .gpr

/-- The field of a general purpose register. -/
def gregField (g : GReg) : BitVec 4 := BitVec.ofNat 4 (gregNumber g)

/-- The field of a register. -/
def regField : Reg → BitVec 4
  | .gpr g => gregField g
  | .r10 => 10

/-- What a decoder answers: an instruction, or the kind of refusal (R81, R302). -/
abbrev Decoded := Except RefusalKind Instr

/-- A used register field: above 10 it is refused (R83). -/
def usedReg (b : BitVec 4) (k : Reg → Decoded) : Decoded :=
  match regOfField b with
  | some r => k r
  | none => .error .badRegister

/-- A written register: 10 is refused (R86). -/
def writtenReg (r : Reg) (k : GReg → Decoded) : Decoded :=
  match r with
  | .gpr g => k g
  | .r10 => .error .writeToR10

/-- A field or condition that the format requires to be zero (R82). -/
def mustBeZero (zero : Bool) (k : Decoded) : Decoded :=
  if zero then k else .error .nonzeroUnusedField

/-- Format ALU_K (R79). -/
def decodeAluK (f : Fields) (c : GReg → BitVec 32 → Instr) : Decoded :=
  mustBeZero (f.src == 0 && f.off == 0) <| usedReg f.dst fun d => writtenReg d fun g => .ok (c g f.imm)

/-- Format ALU_X (R79). Both numbers are checked before the written one (R81 step 3). -/
def decodeAluX (f : Fields) (c : GReg → Reg → Instr) : Decoded :=
  mustBeZero (f.off == 0 && f.imm == 0) <| usedReg f.dst fun d => usedReg f.src fun s => writtenReg d fun g => .ok (c g s)

/-- BPF_NEG with BPF_K: format ALU_K, imm also zero under `negate_dst` (R105). -/
def decodeNegK (neg : NegReading) (f : Fields) (c : GReg → BitVec 32 → Instr) : Decoded :=
  mustBeZero (decide (neg = .literal) || f.imm == 0) <| decodeAluK f c

/-- BPF_NEG with BPF_X: format ALU_X, an illegal opcode under `negate_dst` (R105). -/
def decodeNegX (neg : NegReading) (f : Fields) (c : GReg → Reg → Instr) : Decoded :=
  match neg with
  | .literal => decodeAluX f c
  | .negateDst => .error .illegalOpcode

/-- Format END: imm selects the width (R79, R160). -/
def decodeEnd (f : Fields) (c16 c32 c64 : GReg → Instr) : Decoded :=
  mustBeZero (f.src == 0 && f.off == 0) <| usedReg f.dst fun d => writtenReg d fun g =>
    match f.imm.toNat with
    | 16 => .ok (c16 g)
    | 32 => .ok (c32 g)
    | 64 => .ok (c64 g)
    | _ => .error .badSwapWidth

/-- Format JA (R79). -/
def decodeJa (f : Fields) : Decoded :=
  mustBeZero (f.dst == 0 && f.src == 0 && f.imm == 0) <| .ok (.ja f.off)

/-- Format JCOND_K (R79). -/
def decodeJcondK (f : Fields) (c : Reg → BitVec 32 → BitVec 16 → Instr) : Decoded :=
  mustBeZero (f.src == 0) <| usedReg f.dst fun d => .ok (c d f.imm f.off)

/-- Formats JCOND_X and STX: two registers read, an offset, imm zero (R79). -/
def decodeTwoRead (f : Fields) (c : Reg → Reg → BitVec 16 → Instr) : Decoded :=
  mustBeZero (f.imm == 0) <| usedReg f.dst fun d => usedReg f.src fun s => .ok (c d s f.off)

/-- Format CALL (R79). -/
def decodeCall (f : Fields) : Decoded :=
  mustBeZero (f.dst == 0 && f.src == 0 && f.off == 0) <| .ok (.call f.imm)

/-- Format EXIT: one single word (R79, R225). -/
def decodeExit (f : Fields) : Decoded :=
  mustBeZero (f.dst == 0 && f.src == 0 && f.off == 0 && f.imm == 0) <| .ok .exit

/-- Format LDX (R79). -/
def decodeLdx (f : Fields) (c : GReg → Reg → BitVec 16 → Instr) : Decoded :=
  mustBeZero (f.imm == 0) <| usedReg f.dst fun d => usedReg f.src fun s => writtenReg d fun g => .ok (c g s f.off)

/-- Format ST (R79). -/
def decodeSt (f : Fields) (c : Reg → BitVec 16 → BitVec 32 → Instr) : Decoded :=
  mustBeZero (f.src == 0) <| usedReg f.dst fun d => .ok (c d f.off f.imm)

/-- Format ATOMIC, an operation that writes no src_reg (R79, R250). -/
def decodeAtomicPlain (f : Fields) (c : Reg → Reg → BitVec 16 → Instr) : Decoded :=
  usedReg f.dst fun d => usedReg f.src fun s => .ok (c d s f.off)

/-- Format ATOMIC, an operation that writes src_reg: it may not be R10 (R79, R86, R252). -/
def decodeAtomicFetch (f : Fields) (c : Reg → GReg → BitVec 16 → Instr) : Decoded :=
  usedReg f.dst fun d => usedReg f.src fun s => writtenReg s fun g => .ok (c d g f.off)

/-- Format ATOMIC, an imm that selects no operation: refused, after the register numbers (R81 steps 3 and 4). -/
def decodeAtomicBad (f : Fields) : Decoded :=
  usedReg f.dst fun _ => usedReg f.src fun _ => .error .badAtomicOp

/-- The 32-bit atomic operations, opcode 0xc3: imm selects (R250). -/
def decodeAtomic32 (f : Fields) : Decoded :=
  match f.imm.toNat with
  | 0x00 => decodeAtomicPlain f .atomicAdd32
  | 0x40 => decodeAtomicPlain f .atomicOr32
  | 0x50 => decodeAtomicPlain f .atomicAnd32
  | 0xa0 => decodeAtomicPlain f .atomicXor32
  | 0x01 => decodeAtomicFetch f .atomicFetchAdd32
  | 0x41 => decodeAtomicFetch f .atomicFetchOr32
  | 0x51 => decodeAtomicFetch f .atomicFetchAnd32
  | 0xa1 => decodeAtomicFetch f .atomicFetchXor32
  | 0xe1 => decodeAtomicFetch f .atomicXchg32
  | 0xf1 => decodeAtomicPlain f .atomicCmpxchg32
  | _ => decodeAtomicBad f

/-- The 64-bit atomic operations, opcode 0xdb: imm selects (R250). -/
def decodeAtomic64 (f : Fields) : Decoded :=
  match f.imm.toNat with
  | 0x00 => decodeAtomicPlain f .atomicAdd64
  | 0x40 => decodeAtomicPlain f .atomicOr64
  | 0x50 => decodeAtomicPlain f .atomicAnd64
  | 0xa0 => decodeAtomicPlain f .atomicXor64
  | 0x01 => decodeAtomicFetch f .atomicFetchAdd64
  | 0x41 => decodeAtomicFetch f .atomicFetchOr64
  | 0x51 => decodeAtomicFetch f .atomicFetchAnd64
  | 0xa1 => decodeAtomicFetch f .atomicFetchXor64
  | 0xe1 => decodeAtomicFetch f .atomicXchg64
  | 0xf1 => decodeAtomicPlain f .atomicCmpxchg64
  | _ => decodeAtomicBad f

/-- Opcode 0x18: the src_reg and offset checks, the register, then the second word (R72, R73, R81, R88).
`second` is the word at the next slot, `none` where there is no such slot. -/
def decodeLddw (f : Fields) (second : Option Word) : Decoded :=
  if f.src == 0 then
    mustBeZero (f.off == 0) <| usedReg f.dst fun d => writtenReg d fun g =>
      match second with
      | none => .error .truncatedWideInstruction
      | some w =>
        if w.extractLsb' 0 32 = 0 then .ok (.lddw g (w.extractLsb' 32 32 ++ f.imm)) else .error .badPseudoInstruction
  else .error .unsupportedImm64Kind

/-- The bits above the opcode byte. -/
def Fields.rest (f : Fields) : BitVec 56 := f.imm ++ f.off ++ f.src ++ f.dst

/-- Decoding the fields of the word at a slot (R81). `second` is the word at the next slot. A legacy opcode gives its
row's instruction, whose meaning is the refusal `LegacyPacketAccess` (R282, R283; DESIGN CHOICE, log 10, safe). -/
def decodeFields (neg : NegReading) (f : Fields) (second : Option Word) : Decoded :=
  match f.opcode.toNat with
  | 0x04 => decodeAluK f .add32K
  | 0x0c => decodeAluX f .add32X
  | 0x07 => decodeAluK f .add64K
  | 0x0f => decodeAluX f .add64X
  | 0x14 => decodeAluK f .sub32K
  | 0x1c => decodeAluX f .sub32X
  | 0x17 => decodeAluK f .sub64K
  | 0x1f => decodeAluX f .sub64X
  | 0x24 => decodeAluK f .mul32K
  | 0x2c => decodeAluX f .mul32X
  | 0x27 => decodeAluK f .mul64K
  | 0x2f => decodeAluX f .mul64X
  | 0x34 => decodeAluK f .div32K
  | 0x3c => decodeAluX f .div32X
  | 0x37 => decodeAluK f .div64K
  | 0x3f => decodeAluX f .div64X
  | 0x44 => decodeAluK f .or32K
  | 0x4c => decodeAluX f .or32X
  | 0x47 => decodeAluK f .or64K
  | 0x4f => decodeAluX f .or64X
  | 0x54 => decodeAluK f .and32K
  | 0x5c => decodeAluX f .and32X
  | 0x57 => decodeAluK f .and64K
  | 0x5f => decodeAluX f .and64X
  | 0x64 => decodeAluK f .lsh32K
  | 0x6c => decodeAluX f .lsh32X
  | 0x67 => decodeAluK f .lsh64K
  | 0x6f => decodeAluX f .lsh64X
  | 0x74 => decodeAluK f .rsh32K
  | 0x7c => decodeAluX f .rsh32X
  | 0x77 => decodeAluK f .rsh64K
  | 0x7f => decodeAluX f .rsh64X
  | 0x84 => decodeNegK neg f .neg32K
  | 0x8c => decodeNegX neg f .neg32X
  | 0x87 => decodeNegK neg f .neg64K
  | 0x8f => decodeNegX neg f .neg64X
  | 0x94 => decodeAluK f .mod32K
  | 0x9c => decodeAluX f .mod32X
  | 0x97 => decodeAluK f .mod64K
  | 0x9f => decodeAluX f .mod64X
  | 0xa4 => decodeAluK f .xor32K
  | 0xac => decodeAluX f .xor32X
  | 0xa7 => decodeAluK f .xor64K
  | 0xaf => decodeAluX f .xor64X
  | 0xb4 => decodeAluK f .mov32K
  | 0xbc => decodeAluX f .mov32X
  | 0xb7 => decodeAluK f .mov64K
  | 0xbf => decodeAluX f .mov64X
  | 0xc4 => decodeAluK f .arsh32K
  | 0xcc => decodeAluX f .arsh32X
  | 0xc7 => decodeAluK f .arsh64K
  | 0xcf => decodeAluX f .arsh64X
  | 0xd4 => decodeEnd f .le16 .le32 .le64
  | 0xdc => decodeEnd f .be16 .be32 .be64
  | 0x05 => decodeJa f
  | 0x15 => decodeJcondK f .jeqK
  | 0x1d => decodeTwoRead f .jeqX
  | 0x16 => decodeJcondK f .jeq32K
  | 0x1e => decodeTwoRead f .jeq32X
  | 0x25 => decodeJcondK f .jgtK
  | 0x2d => decodeTwoRead f .jgtX
  | 0x26 => decodeJcondK f .jgt32K
  | 0x2e => decodeTwoRead f .jgt32X
  | 0x35 => decodeJcondK f .jgeK
  | 0x3d => decodeTwoRead f .jgeX
  | 0x36 => decodeJcondK f .jge32K
  | 0x3e => decodeTwoRead f .jge32X
  | 0x45 => decodeJcondK f .jsetK
  | 0x4d => decodeTwoRead f .jsetX
  | 0x46 => decodeJcondK f .jset32K
  | 0x4e => decodeTwoRead f .jset32X
  | 0x55 => decodeJcondK f .jneK
  | 0x5d => decodeTwoRead f .jneX
  | 0x56 => decodeJcondK f .jne32K
  | 0x5e => decodeTwoRead f .jne32X
  | 0x65 => decodeJcondK f .jsgtK
  | 0x6d => decodeTwoRead f .jsgtX
  | 0x66 => decodeJcondK f .jsgt32K
  | 0x6e => decodeTwoRead f .jsgt32X
  | 0x75 => decodeJcondK f .jsgeK
  | 0x7d => decodeTwoRead f .jsgeX
  | 0x76 => decodeJcondK f .jsge32K
  | 0x7e => decodeTwoRead f .jsge32X
  | 0xa5 => decodeJcondK f .jltK
  | 0xad => decodeTwoRead f .jltX
  | 0xa6 => decodeJcondK f .jlt32K
  | 0xae => decodeTwoRead f .jlt32X
  | 0xb5 => decodeJcondK f .jleK
  | 0xbd => decodeTwoRead f .jleX
  | 0xb6 => decodeJcondK f .jle32K
  | 0xbe => decodeTwoRead f .jle32X
  | 0xc5 => decodeJcondK f .jsltK
  | 0xcd => decodeTwoRead f .jsltX
  | 0xc6 => decodeJcondK f .jslt32K
  | 0xce => decodeTwoRead f .jslt32X
  | 0xd5 => decodeJcondK f .jsleK
  | 0xdd => decodeTwoRead f .jsleX
  | 0xd6 => decodeJcondK f .jsle32K
  | 0xde => decodeTwoRead f .jsle32X
  | 0x85 => decodeCall f
  | 0x95 => decodeExit f
  | 0x63 => decodeTwoRead f .stxw
  | 0x6b => decodeTwoRead f .stxh
  | 0x73 => decodeTwoRead f .stxb
  | 0x7b => decodeTwoRead f .stxdw
  | 0x62 => decodeSt f .stw
  | 0x6a => decodeSt f .sth
  | 0x72 => decodeSt f .stb
  | 0x7a => decodeSt f .stdw
  | 0x61 => decodeLdx f .ldxw
  | 0x69 => decodeLdx f .ldxh
  | 0x71 => decodeLdx f .ldxb
  | 0x79 => decodeLdx f .ldxdw
  | 0xc3 => decodeAtomic32 f
  | 0xdb => decodeAtomic64 f
  | 0x18 => decodeLddw f second
  | 0x20 => .ok (.ldabsw f.rest)
  | 0x28 => .ok (.ldabsh f.rest)
  | 0x30 => .ok (.ldabsb f.rest)
  | 0x38 => .ok (.ldabsdw f.rest)
  | 0x40 => .ok (.ldindw f.rest)
  | 0x48 => .ok (.ldindh f.rest)
  | 0x50 => .ok (.ldindb f.rest)
  | 0x58 => .ok (.ldinddw f.rest)
  | _ => .error .illegalOpcode

/-- Decoding the word `w` at a slot; `second` is the word at the next slot, if there is one (R81). -/
def decode (neg : NegReading) (w : Word) (second : Option Word) : Decoded :=
  decodeFields neg (Fields.ofWord w) second

/-- Decoding the first instruction of a list of words; a missing first word decodes as the word zero, which spells
nothing. -/
def decodeWords (neg : NegReading) : List Word → Decoded
  | [] => .error .illegalOpcode
  | w :: ws => decode neg w ws.head?

/-- The program text of a byte string: word i is bytes 8i to 8i+7 in `INSN_BYTE_ORDER` (20_memory.md rule R43).
`none` where the bytes are no whole number of words. -/
def programOfBytes (order : Endian) : List Byte → Option (List Word)
  | [] => some []
  | b0 :: b1 :: b2 :: b3 :: b4 :: b5 :: b6 :: b7 :: rest =>
    (programOfBytes order rest).map (joinBytes order [b0, b1, b2, b3, b4, b5, b6, b7] :: ·)
  | _ => none

/-- Decoding the first instruction of a byte string (R43, R81): total on any bytes. Fewer than one word's bytes, or a
last partial word, spell nothing. -/
def decodeBytes (neg : NegReading) (order : Endian) (bs : List Byte) : Decoded :=
  match programOfBytes order bs with
  | some ws => decodeWords neg ws
  | none => .error .illegalOpcode

/-! ### The encoder -/

/-- The fields of a legacy word: the opcode and the undecoded rest (R282, R283). -/
def legacyFields (opcode : BitVec 8) (rest : BitVec 56) : Fields where
  imm    := rest.extractLsb' 24 32
  off    := rest.extractLsb' 8 16
  src    := rest.extractLsb' 4 4
  dst    := rest.extractLsb' 0 4
  opcode := opcode

/-- The fields of an instruction's first word, from the formats of R79 and the opcode map of R80. -/
def encodeFields : Instr → Fields
  | .add32K dst imm => ⟨imm, 0, 0, gregField dst, 0x04⟩
  | .add32X dst src => ⟨0, 0, regField src, gregField dst, 0x0c⟩
  | .add64K dst imm => ⟨imm, 0, 0, gregField dst, 0x07⟩
  | .add64X dst src => ⟨0, 0, regField src, gregField dst, 0x0f⟩
  | .sub32K dst imm => ⟨imm, 0, 0, gregField dst, 0x14⟩
  | .sub32X dst src => ⟨0, 0, regField src, gregField dst, 0x1c⟩
  | .sub64K dst imm => ⟨imm, 0, 0, gregField dst, 0x17⟩
  | .sub64X dst src => ⟨0, 0, regField src, gregField dst, 0x1f⟩
  | .mul32K dst imm => ⟨imm, 0, 0, gregField dst, 0x24⟩
  | .mul32X dst src => ⟨0, 0, regField src, gregField dst, 0x2c⟩
  | .mul64K dst imm => ⟨imm, 0, 0, gregField dst, 0x27⟩
  | .mul64X dst src => ⟨0, 0, regField src, gregField dst, 0x2f⟩
  | .div32K dst imm => ⟨imm, 0, 0, gregField dst, 0x34⟩
  | .div32X dst src => ⟨0, 0, regField src, gregField dst, 0x3c⟩
  | .div64K dst imm => ⟨imm, 0, 0, gregField dst, 0x37⟩
  | .div64X dst src => ⟨0, 0, regField src, gregField dst, 0x3f⟩
  | .or32K dst imm => ⟨imm, 0, 0, gregField dst, 0x44⟩
  | .or32X dst src => ⟨0, 0, regField src, gregField dst, 0x4c⟩
  | .or64K dst imm => ⟨imm, 0, 0, gregField dst, 0x47⟩
  | .or64X dst src => ⟨0, 0, regField src, gregField dst, 0x4f⟩
  | .and32K dst imm => ⟨imm, 0, 0, gregField dst, 0x54⟩
  | .and32X dst src => ⟨0, 0, regField src, gregField dst, 0x5c⟩
  | .and64K dst imm => ⟨imm, 0, 0, gregField dst, 0x57⟩
  | .and64X dst src => ⟨0, 0, regField src, gregField dst, 0x5f⟩
  | .lsh32K dst imm => ⟨imm, 0, 0, gregField dst, 0x64⟩
  | .lsh32X dst src => ⟨0, 0, regField src, gregField dst, 0x6c⟩
  | .lsh64K dst imm => ⟨imm, 0, 0, gregField dst, 0x67⟩
  | .lsh64X dst src => ⟨0, 0, regField src, gregField dst, 0x6f⟩
  | .rsh32K dst imm => ⟨imm, 0, 0, gregField dst, 0x74⟩
  | .rsh32X dst src => ⟨0, 0, regField src, gregField dst, 0x7c⟩
  | .rsh64K dst imm => ⟨imm, 0, 0, gregField dst, 0x77⟩
  | .rsh64X dst src => ⟨0, 0, regField src, gregField dst, 0x7f⟩
  | .neg32K dst imm => ⟨imm, 0, 0, gregField dst, 0x84⟩
  | .neg32X dst src => ⟨0, 0, regField src, gregField dst, 0x8c⟩
  | .neg64K dst imm => ⟨imm, 0, 0, gregField dst, 0x87⟩
  | .neg64X dst src => ⟨0, 0, regField src, gregField dst, 0x8f⟩
  | .mod32K dst imm => ⟨imm, 0, 0, gregField dst, 0x94⟩
  | .mod32X dst src => ⟨0, 0, regField src, gregField dst, 0x9c⟩
  | .mod64K dst imm => ⟨imm, 0, 0, gregField dst, 0x97⟩
  | .mod64X dst src => ⟨0, 0, regField src, gregField dst, 0x9f⟩
  | .xor32K dst imm => ⟨imm, 0, 0, gregField dst, 0xa4⟩
  | .xor32X dst src => ⟨0, 0, regField src, gregField dst, 0xac⟩
  | .xor64K dst imm => ⟨imm, 0, 0, gregField dst, 0xa7⟩
  | .xor64X dst src => ⟨0, 0, regField src, gregField dst, 0xaf⟩
  | .mov32K dst imm => ⟨imm, 0, 0, gregField dst, 0xb4⟩
  | .mov32X dst src => ⟨0, 0, regField src, gregField dst, 0xbc⟩
  | .mov64K dst imm => ⟨imm, 0, 0, gregField dst, 0xb7⟩
  | .mov64X dst src => ⟨0, 0, regField src, gregField dst, 0xbf⟩
  | .arsh32K dst imm => ⟨imm, 0, 0, gregField dst, 0xc4⟩
  | .arsh32X dst src => ⟨0, 0, regField src, gregField dst, 0xcc⟩
  | .arsh64K dst imm => ⟨imm, 0, 0, gregField dst, 0xc7⟩
  | .arsh64X dst src => ⟨0, 0, regField src, gregField dst, 0xcf⟩
  | .le16 dst => ⟨16, 0, 0, gregField dst, 0xd4⟩
  | .le32 dst => ⟨32, 0, 0, gregField dst, 0xd4⟩
  | .le64 dst => ⟨64, 0, 0, gregField dst, 0xd4⟩
  | .be16 dst => ⟨16, 0, 0, gregField dst, 0xdc⟩
  | .be32 dst => ⟨32, 0, 0, gregField dst, 0xdc⟩
  | .be64 dst => ⟨64, 0, 0, gregField dst, 0xdc⟩
  | .ja off => ⟨0, off, 0, 0, 0x05⟩
  | .jeqK dst imm off => ⟨imm, off, 0, regField dst, 0x15⟩
  | .jeqX dst src off => ⟨0, off, regField src, regField dst, 0x1d⟩
  | .jeq32K dst imm off => ⟨imm, off, 0, regField dst, 0x16⟩
  | .jeq32X dst src off => ⟨0, off, regField src, regField dst, 0x1e⟩
  | .jgtK dst imm off => ⟨imm, off, 0, regField dst, 0x25⟩
  | .jgtX dst src off => ⟨0, off, regField src, regField dst, 0x2d⟩
  | .jgt32K dst imm off => ⟨imm, off, 0, regField dst, 0x26⟩
  | .jgt32X dst src off => ⟨0, off, regField src, regField dst, 0x2e⟩
  | .jgeK dst imm off => ⟨imm, off, 0, regField dst, 0x35⟩
  | .jgeX dst src off => ⟨0, off, regField src, regField dst, 0x3d⟩
  | .jge32K dst imm off => ⟨imm, off, 0, regField dst, 0x36⟩
  | .jge32X dst src off => ⟨0, off, regField src, regField dst, 0x3e⟩
  | .jsetK dst imm off => ⟨imm, off, 0, regField dst, 0x45⟩
  | .jsetX dst src off => ⟨0, off, regField src, regField dst, 0x4d⟩
  | .jset32K dst imm off => ⟨imm, off, 0, regField dst, 0x46⟩
  | .jset32X dst src off => ⟨0, off, regField src, regField dst, 0x4e⟩
  | .jneK dst imm off => ⟨imm, off, 0, regField dst, 0x55⟩
  | .jneX dst src off => ⟨0, off, regField src, regField dst, 0x5d⟩
  | .jne32K dst imm off => ⟨imm, off, 0, regField dst, 0x56⟩
  | .jne32X dst src off => ⟨0, off, regField src, regField dst, 0x5e⟩
  | .jsgtK dst imm off => ⟨imm, off, 0, regField dst, 0x65⟩
  | .jsgtX dst src off => ⟨0, off, regField src, regField dst, 0x6d⟩
  | .jsgt32K dst imm off => ⟨imm, off, 0, regField dst, 0x66⟩
  | .jsgt32X dst src off => ⟨0, off, regField src, regField dst, 0x6e⟩
  | .jsgeK dst imm off => ⟨imm, off, 0, regField dst, 0x75⟩
  | .jsgeX dst src off => ⟨0, off, regField src, regField dst, 0x7d⟩
  | .jsge32K dst imm off => ⟨imm, off, 0, regField dst, 0x76⟩
  | .jsge32X dst src off => ⟨0, off, regField src, regField dst, 0x7e⟩
  | .jltK dst imm off => ⟨imm, off, 0, regField dst, 0xa5⟩
  | .jltX dst src off => ⟨0, off, regField src, regField dst, 0xad⟩
  | .jlt32K dst imm off => ⟨imm, off, 0, regField dst, 0xa6⟩
  | .jlt32X dst src off => ⟨0, off, regField src, regField dst, 0xae⟩
  | .jleK dst imm off => ⟨imm, off, 0, regField dst, 0xb5⟩
  | .jleX dst src off => ⟨0, off, regField src, regField dst, 0xbd⟩
  | .jle32K dst imm off => ⟨imm, off, 0, regField dst, 0xb6⟩
  | .jle32X dst src off => ⟨0, off, regField src, regField dst, 0xbe⟩
  | .jsltK dst imm off => ⟨imm, off, 0, regField dst, 0xc5⟩
  | .jsltX dst src off => ⟨0, off, regField src, regField dst, 0xcd⟩
  | .jslt32K dst imm off => ⟨imm, off, 0, regField dst, 0xc6⟩
  | .jslt32X dst src off => ⟨0, off, regField src, regField dst, 0xce⟩
  | .jsleK dst imm off => ⟨imm, off, 0, regField dst, 0xd5⟩
  | .jsleX dst src off => ⟨0, off, regField src, regField dst, 0xdd⟩
  | .jsle32K dst imm off => ⟨imm, off, 0, regField dst, 0xd6⟩
  | .jsle32X dst src off => ⟨0, off, regField src, regField dst, 0xde⟩
  | .call imm => ⟨imm, 0, 0, 0, 0x85⟩
  | .exit => ⟨0, 0, 0, 0, 0x95⟩
  | .stxw dst src off => ⟨0, off, regField src, regField dst, 0x63⟩
  | .stxh dst src off => ⟨0, off, regField src, regField dst, 0x6b⟩
  | .stxb dst src off => ⟨0, off, regField src, regField dst, 0x73⟩
  | .stxdw dst src off => ⟨0, off, regField src, regField dst, 0x7b⟩
  | .stw dst off imm => ⟨imm, off, 0, regField dst, 0x62⟩
  | .sth dst off imm => ⟨imm, off, 0, regField dst, 0x6a⟩
  | .stb dst off imm => ⟨imm, off, 0, regField dst, 0x72⟩
  | .stdw dst off imm => ⟨imm, off, 0, regField dst, 0x7a⟩
  | .ldxw dst src off => ⟨0, off, regField src, gregField dst, 0x61⟩
  | .ldxh dst src off => ⟨0, off, regField src, gregField dst, 0x69⟩
  | .ldxb dst src off => ⟨0, off, regField src, gregField dst, 0x71⟩
  | .ldxdw dst src off => ⟨0, off, regField src, gregField dst, 0x79⟩
  | .atomicAdd32 dst src off => ⟨0x00, off, regField src, regField dst, 0xc3⟩
  | .atomicAdd64 dst src off => ⟨0x00, off, regField src, regField dst, 0xdb⟩
  | .atomicOr32 dst src off => ⟨0x40, off, regField src, regField dst, 0xc3⟩
  | .atomicOr64 dst src off => ⟨0x40, off, regField src, regField dst, 0xdb⟩
  | .atomicAnd32 dst src off => ⟨0x50, off, regField src, regField dst, 0xc3⟩
  | .atomicAnd64 dst src off => ⟨0x50, off, regField src, regField dst, 0xdb⟩
  | .atomicXor32 dst src off => ⟨0xa0, off, regField src, regField dst, 0xc3⟩
  | .atomicXor64 dst src off => ⟨0xa0, off, regField src, regField dst, 0xdb⟩
  | .atomicFetchAdd32 dst src off => ⟨0x01, off, gregField src, regField dst, 0xc3⟩
  | .atomicFetchAdd64 dst src off => ⟨0x01, off, gregField src, regField dst, 0xdb⟩
  | .atomicFetchOr32 dst src off => ⟨0x41, off, gregField src, regField dst, 0xc3⟩
  | .atomicFetchOr64 dst src off => ⟨0x41, off, gregField src, regField dst, 0xdb⟩
  | .atomicFetchAnd32 dst src off => ⟨0x51, off, gregField src, regField dst, 0xc3⟩
  | .atomicFetchAnd64 dst src off => ⟨0x51, off, gregField src, regField dst, 0xdb⟩
  | .atomicFetchXor32 dst src off => ⟨0xa1, off, gregField src, regField dst, 0xc3⟩
  | .atomicFetchXor64 dst src off => ⟨0xa1, off, gregField src, regField dst, 0xdb⟩
  | .atomicXchg32 dst src off => ⟨0xe1, off, gregField src, regField dst, 0xc3⟩
  | .atomicXchg64 dst src off => ⟨0xe1, off, gregField src, regField dst, 0xdb⟩
  | .atomicCmpxchg32 dst src off => ⟨0xf1, off, regField src, regField dst, 0xc3⟩
  | .atomicCmpxchg64 dst src off => ⟨0xf1, off, regField src, regField dst, 0xdb⟩
  | .lddw dst imm64 => ⟨imm64.extractLsb' 0 32, 0, 0, gregField dst, 0x18⟩
  | .ldabsw rest => legacyFields 0x20 rest
  | .ldabsh rest => legacyFields 0x28 rest
  | .ldabsb rest => legacyFields 0x30 rest
  | .ldabsdw rest => legacyFields 0x38 rest
  | .ldindw rest => legacyFields 0x40 rest
  | .ldindh rest => legacyFields 0x48 rest
  | .ldindb rest => legacyFields 0x50 rest
  | .ldinddw rest => legacyFields 0x58 rest

/-- The second word of a wide instruction: the high half of imm64 over 32 zero bits (R72, R73). -/
def pseudoWord (imm64 : Word) : Word := imm64.extractLsb' 32 32 ++ (0 : BitVec 32)

/-- The words of an instruction: two for lddw, one for every other (R70, R72). -/
def encode (i : Instr) : List Word :=
  match i with
  | .lddw _ imm64 => [(encodeFields i).toWord, pseudoWord imm64]
  | _ => [(encodeFields i).toWord]

/-- The instruction this decoder reads from an instruction whose bits are `w`, numbered from the least significant
bit of the first word, every bit from `nbits` on being zero; NEG_READING is its default. -/
def decodeTableWord (nbits w : Nat) : Option Instr :=
  let bits := w % 2 ^ nbits
  match decode .literal (BitVec.ofNat 64 bits) (some (BitVec.ofNat 64 (bits / 2 ^ 64))) with
  | .ok i => some i
  | .error _ => none

end Sys2Proof
end

