-- ==== Sys2Proof/Machine/Flags.lean ====
section
/-! DEFINITION. eBPF v1.0 has no flags (10_state.md rule R29): a conditional jump evaluates one predicate on its two
operands and stores nothing. The predicates of 42_jump.md rule R171, on operands of 64 or 32 bits. -/

namespace Sys2Proof.Machine

/-- BPF_JEQ: `D = S`. -/
def condEq {n : Nat} (d s : BitVec n) : Bool := decide (d = s)

/-- BPF_JGT: `u(D) > u(S)`. -/
def condGt {n : Nat} (d s : BitVec n) : Bool := decide (s.toNat < d.toNat)

/-- BPF_JGE: `u(D) >= u(S)`. -/
def condGe {n : Nat} (d s : BitVec n) : Bool := decide (s.toNat ≤ d.toNat)

/-- BPF_JSET: `(D & S) != 0`. -/
def condSet {n : Nat} (d s : BitVec n) : Bool := decide (d &&& s ≠ 0)

/-- BPF_JNE: `D != S`. -/
def condNe {n : Nat} (d s : BitVec n) : Bool := decide (d ≠ s)

/-- BPF_JSGT: `s(D) > s(S)`. -/
def condSgt {n : Nat} (d s : BitVec n) : Bool := decide (s.toInt < d.toInt)

/-- BPF_JSGE: `s(D) >= s(S)`. -/
def condSge {n : Nat} (d s : BitVec n) : Bool := decide (s.toInt ≤ d.toInt)

/-- BPF_JLT: `u(D) < u(S)`. -/
def condLt {n : Nat} (d s : BitVec n) : Bool := decide (d.toNat < s.toNat)

/-- BPF_JLE: `u(D) <= u(S)`. -/
def condLe {n : Nat} (d s : BitVec n) : Bool := decide (d.toNat ≤ s.toNat)

/-- BPF_JSLT: `s(D) < s(S)`. -/
def condSlt {n : Nat} (d s : BitVec n) : Bool := decide (d.toInt < s.toInt)

/-- BPF_JSLE: `s(D) <= s(S)`. -/
def condSle {n : Nat} (d s : BitVec n) : Bool := decide (d.toInt ≤ s.toInt)

end Sys2Proof.Machine
end

