-- ==== Sys2Proof/Machine/State.lean ====
section
/-! DEFINITION. The state of one running program as plain data (10_state.md rule R20), its faults, its refusals, and
the state after reset. -/

namespace Sys2Proof.Machine

/-- The kind of an access to data memory (R44, R45, R52). -/
inductive AccessKind where
  | read
  | write
  | atomic
deriving DecidableEq, Repr

/-- The six fault kinds with the information they record (60_exceptions.md rule R304). -/
inductive FaultInfo where
  /-- 1: an instruction read a register that holds no value (R24). -/
  | uninitRegister (reg : GReg)
  /-- 2: pc was outside the program at the start of a step (R28). -/
  | pcOutOfRange (pc : Int)
  /-- 3: the bytes wrap past 2^64 or are not inside one region granting the access (R46, R48). -/
  | memAccess (addr : Word) (size : Nat) (kind : AccessKind)
  /-- 4: the address is not a multiple of the size (R47, R52). -/
  | misaligned (addr : Word) (size : Nat) (kind : AccessKind)
  /-- 5: `HELPERS` has no entry for the number (R224). -/
  | unknownFunction (imm : BitVec 32)
  /-- 6: the called function's description faults (R224). -/
  | helperFault (imm : BitVec 32)
deriving DecidableEq, Repr

/-- The code of a fault kind, the spec's own label (R304). -/
def FaultInfo.code : FaultInfo → Nat
  | .uninitRegister _ => 1
  | .pcOutOfRange _ => 2
  | .memAccess _ _ _ => 3
  | .misaligned _ _ _ => 4
  | .unknownFunction _ => 5
  | .helperFault _ => 6

/-- The outcome mark OUT (R20, R300). -/
inductive OutMark where
  | running
  | exited (v : Word)
  | faulted (f : FaultInfo)
deriving DecidableEq, Repr

/-- An agent (R58 a, R316). The step relation is written for one, the run itself, and the spec gives agents no
identifiers; a model of several adds them here. The functions a run calls are part of it (R55, R311). -/
inductive Agent where
  | thisRun
deriving DecidableEq, Repr

/-- One access to a shared region (R58 d): the agent, the kind (the constructor), the address, the size and the value.
The values are those of the `size` bytes, zero-extended; an atomic records the old value and what it wrote, if it
wrote. -/
inductive Event where
  | read (agent : Agent) (addr : Word) (size : Nat) (value : Word)
  | write (agent : Agent) (addr : Word) (size : Nat) (value : Word)
  | atomic (agent : Agent) (addr : Word) (size : Nat) (old : Word) (new : Option Word)
deriving DecidableEq, Repr

/-- The register file (R21): R0 to R9, each holding a value or none (R24), and R10, which always holds one (R304). -/
structure RegFile where
  r0  : Option Word
  r1  : Option Word
  r2  : Option Word
  r3  : Option Word
  r4  : Option Word
  r5  : Option Word
  r6  : Option Word
  r7  : Option Word
  r8  : Option Word
  r9  : Option Word
  r10 : Word
deriving DecidableEq, Repr

/-- DATA as the list of the bytes that hold a known content: written ones and those of a region's launch content
(R34, R44). An address that is not listed holds an unconstrained byte (log 6). The canonical form is `Memory.wf`. -/
abbrev Memory := List Host.Cell

/-- The state: REGS, pc, DATA and OUT of R20; the event history R20 lets a model keep beside them (R58 d); the
parameters of R7, which no instruction changes; and `draws`, the model's own count of the free values taken so far
(log 5). -/
structure State where
  regs    : RegFile
  pc      : Int
  mem     : Memory
  out     : OutMark
  history : List Event
  par     : Params
  draws   : Nat
deriving DecidableEq, Repr

/-- The one stop that is no state of the machine. The six faults of R304 are next states with OUT = faulted (log 9). -/
inductive Fault where
  /-- Raised by `step` alone, from a state whose OUT is not `running`: "there is no step" (R300, R306). Safe: the
  spec gives no next state there either. -/
  | runOver
deriving DecidableEq, Repr

/-- Results that are no state of the machine because a word spells no instruction with a meaning (R302). -/
inductive Refusal where
  /-- Raised by an arm of `exec` whose instruction has no meaning yet. No arm is left so. Safe. -/
  | notModelled (mnemonic : String)
  /-- Raised by `step` on a word the decoder refuses, by the meanings of the legacy packet loads, and by the meanings
  of BPF_NEG under `negate_dst` (R302, R305, R105). Safe: the spec gives such a word no next state. -/
  | word (kind : RefusalKind)
deriving DecidableEq, Repr

/-- The stack region of the spec's examples: 512 bytes below 0x10000, private, readable, writable, of unconstrained
content (R56; DESIGN CHOICE, log 2, unsafe: STACK_SIZE and FP are open parameters). -/
def resetStack : Region :=
  { base := 0xfe00, length := 512, readable := true, writable := true, shared := false, content := none }

/-- The parameters at reset: R7's defaults (log 3, unsafe), the stack as the only region (log 2), no program
(log 4) and no function (log 8). -/
def resetParams : Params where
  hostEndian  := .little
  alignPolicy := .fault
  shiftPolicy := .unspecified
  negReading  := .literal
  program     := []
  regions     := [resetStack]
  helpers     := []

/-- The machine after reset: the start state of R34 for the parameters above, but that R0 and R6 to R9 hold 0 where
R34 says "no value", and every argument register is passed 0 (DESIGN CHOICE, log 1, unsafe). The start state of R34
for any parameters, "no value" included, is `State.launch`. -/
def State.reset : State where
  regs    := ⟨some 0, some 0, some 0, some 0, some 0, some 0, some 0, some 0, some 0, some 0, 0x10000⟩
  pc      := 0
  mem     := []
  out     := .running
  history := []
  par     := resetParams
  draws   := 0

end Sys2Proof.Machine
end

