-- ==== Sys2Proof/Machine/Memory.lean ====
section
/-! DEFINITION. Data memory: single bytes, the access checks, and the primitives `MemRead`, `MemWrite` and `AtomicRMW`
(20_memory.md rules R44 to R52). -/

namespace Sys2Proof.Machine

/-! ### Bytes -/

/-- The listed byte at an address, `none` where the address is not listed. -/
def Memory.get : Memory → Nat → Option Byte
  | [], _ => none
  | (k, b) :: m, a => if a = k then some b else Memory.get m a

/-- Writing one byte, in address order. -/
def Memory.set : Memory → Nat → Byte → Memory
  | [], a, b => [(a, b)]
  | (k, c) :: m, a, b =>
    if a < k then (a, b) :: (k, c) :: m
    else if a = k then (a, b) :: m
    else (k, c) :: Memory.set m a b

/-- Writing bytes at consecutive addresses. -/
def Memory.setBytes : Memory → Nat → List Byte → Memory
  | m, _, [] => m
  | m, a, b :: bs => Memory.setBytes (Memory.set m a b) (a + 1) bs

/-- Every listed address is at least `lo`, and they strictly rise. -/
def Memory.rising : Nat → Memory → Bool
  | _, [] => true
  | lo, (k, _) :: m => decide (lo ≤ k) && Memory.rising (k + 1) m

/-- The canonical form: listed addresses strictly rise. An unlisted address holds no known byte, so no entry equals
what an unlisted address holds (log 6). -/
def Memory.wf (m : Memory) : Bool := Memory.rising 0 m

/-- The byte of data memory at an address: the listed one, else the unconstrained launch content, which is the same
at every read (R44, R56, R332) and, by the model's choice, in every run (DESIGN CHOICE, log 6). -/
def State.byteAt (s : State) (a : Nat) : Byte := (Memory.get s.mem a).getD (Config.launchByte a)

/-- The `n` bytes at consecutive addresses, lowest first. -/
def State.bytesAt (s : State) : Nat → Nat → List Byte
  | _, 0 => []
  | a, n + 1 => s.byteAt a :: s.bytesAt (a + 1) n

/-- `n` drawn bytes, from the `k`-th draw on (R44, R58). -/
def drawBytes : Nat → Nat → List Byte
  | _, 0 => []
  | k, n + 1 => Config.draw 8 k :: drawBytes (k + 1) n

/-! ### Checks -/

/-- The bytes `a .. a+n-1` lie in the region (R48). -/
def regionCovers (r : Region) (a n : Nat) : Bool :=
  decide (r.base.toNat ≤ a) && decide (a + n ≤ r.base.toNat + r.length)

/-- The region grants the kind of access: an atomic needs both permissions (R48, R52). -/
def regionGrants (r : Region) : AccessKind → Bool
  | .read => r.readable
  | .write => r.writable
  | .atomic => r.readable && r.writable

/-- Whether the kind of access must be aligned: plain ones under `ALIGN_POLICY = fault`, atomics always (R47, R52). -/
def alignChecked (par : Params) : AccessKind → Bool
  | .read => decide (par.alignPolicy = .fault)
  | .write => decide (par.alignPolicy = .fault)
  | .atomic => true

/-- The checks of an access, in the order R46 (no wrap), R47 (alignment), R48 (one region that grants it). -/
def checkAccess (par : Params) (kind : AccessKind) (addr : Word) (n : Nat) : Except FaultInfo Region :=
  if 2 ^ 64 < addr.toNat + n then .error (.memAccess addr n kind)
  else if addr.toNat % n ≠ 0 ∧ alignChecked par kind = true then .error (.misaligned addr n kind)
  else
    match par.regions.find? (fun r => regionCovers r addr.toNat n && regionGrants r kind) with
    | some r => .ok r
    | none => .error (.memAccess addr n kind)

/-! ### The primitives -/

/-- The value an access to `n` bytes of the region reads: drawn bytes in a shared region, else the bytes of DATA, in
host byte order (R44). -/
def State.valueAt (s : State) (r : Region) (addr : Word) (n : Nat) : Word :=
  joinBytes s.par.hostEndian (if r.shared then drawBytes s.draws n else s.bytesAt addr.toNat n)

/-- What reading `n` bytes of the region does to the model's count of draws (R44). -/
def State.afterRead (s : State) (r : Region) (n : Nat) : State :=
  if r.shared then { s with draws := s.draws + n } else s

/-- Recording an access if its region is shared (R58 d). -/
def State.record (s : State) (r : Region) (e : Event) : State :=
  if r.shared then { s with history := s.history ++ [e] } else s

/-- Storing the `n` low bytes of a value in host byte order (R45). -/
def State.store (s : State) (addr : Word) (n : Nat) (v : Word) : State :=
  { s with mem := Memory.setBytes s.mem addr.toNat (splitBytes s.par.hostEndian n v) }

/-- `MemRead(addr, n)` (R44): the value, zero-extended, and the state after the read. -/
def memRead (s : State) (addr : Word) (sz : Size) : Except FaultInfo (Word × State) :=
  match checkAccess s.par .read addr sz.bytes with
  | .error f => .error f
  | .ok r =>
    let v := s.valueAt r addr sz.bytes
    .ok (v, (s.afterRead r sz.bytes).record r (.read .thisRun addr sz.bytes v))

/-- `MemWrite(addr, n, v)` (R45), `v` taken to `n` bytes. -/
def memWrite (s : State) (addr : Word) (sz : Size) (v : Word) : Except FaultInfo State :=
  match checkAccess s.par .write addr sz.bytes with
  | .error f => .error f
  | .ok r => .ok ((s.store addr sz.bytes v).record r (.write .thisRun addr sz.bytes (lowBytes sz.bytes v)))

/-- Storing the new value of an atomic operation; `none` is `keep` (R52). -/
def State.storeNew (s : State) (addr : Word) (n : Nat) (new : Option Word) : State :=
  match new with
  | some v => s.store addr n v
  | none => s

/-- `AtomicRMW(addr, n, f)` (R52): one indivisible read, modification and write; the old value and the state after. -/
def atomicRMW (s : State) (addr : Word) (sz : Size) (f : Word → Option Word) : Except FaultInfo (Word × State) :=
  match checkAccess s.par .atomic addr sz.bytes with
  | .error e => .error e
  | .ok r =>
    let old := s.valueAt r addr sz.bytes
    .ok (old, ((s.afterRead r sz.bytes).storeNew addr sz.bytes (f old)).record r (.atomic .thisRun addr sz.bytes old (f old)))

end Sys2Proof.Machine
end

