-- ==== Sys2Proof/Machine/Operands.lean ====
section
/-! DEFINITION. How the fields of an instruction and the values of registers become operands (30_encoding.md rules
R77, R78; 40_alu.md rules R101, R102; 20_memory.md rule R50), and the arithmetic of R107 that is not a plain
operation of bit vectors. -/

namespace Sys2Proof.Machine

/-- The low 32 bits of a register: the operand of the 32-bit classes (R101, R170, R251). -/
def low32 (v : Word) : BitVec 32 := v.setWidth 32

/-- `zext_64` of a 32-bit result: the upper half of the register becomes zero (R101). -/
def zext64 (v : BitVec 32) : Word := v.setWidth 64

/-- `sext_64(imm)`: the immediate as a 64-bit operand (R77). -/
def immOperand (imm : BitVec 32) : Word := imm.signExtend 64

/-- `EA = (x[base] + sext_64(offset)) mod 2^64` (R50). -/
def effAddr (base : Word) (off : BitVec 16) : Word := base + off.signExtend 64

/-- BPF_DIV: unsigned, 0 for a zero divisor (R104). -/
def divOp (n : Nat) (d s : BitVec n) : BitVec n := if s = 0 then 0 else BitVec.ofNat n (d.toNat / s.toNat)

/-- BPF_MOD: unsigned, the destination operand for a zero divisor (R104). -/
def modOp (n : Nat) (d s : BitVec n) : BitVec n := if s = 0 then d else BitVec.ofNat n (d.toNat % s.toNat)

/-- A shift of `d` by `k` (R103): below the width the shift itself; from the width on, the shift by `k mod N` under
`SHIFT_POLICY = mask`, and `none` under `unspecified`, where the result is a free value. -/
def shiftOp (n : Nat) (shift : BitVec n → Nat → BitVec n) (pol : ShiftPolicy) (d : BitVec n) (k : Nat) :
    Option (BitVec n) :=
  if k < n then some (shift d k)
  else
    match pol with
    | .mask => some (shift d (k % n))
    | .unspecified => none

/-- A byte swap instruction on the `n` low bytes of a register: unchanged where the host already has the target order,
reversed otherwise, zero-extended (R161, R162). -/
def endOp (host target : Endian) (n : Nat) (v : Word) : Word :=
  if target = host then lowBytes n v else swapBytes n v

end Sys2Proof.Machine
end

