-- ==== Sys2Proof/Machine/Ops.lean ====
section
/-! DEFINITION. The shared operations of the meanings: register access (00_scope.md rule R12), raising a fault
(60_exceptions.md rules R300, R303), the end of a run (R301), the program counter (10_state.md rule R27), and one shape
per group of instructions. -/

namespace Sys2Proof.Machine

/-- What `exec` and `step` answer. -/
abbrev Result := Host.Outcome State Fault Refusal

/-! ### Registers -/

/-- What a general purpose register holds: a value or none (R24). -/
def RegFile.get (rf : RegFile) : GReg → Option Word
  | .r0 => rf.r0
  | .r1 => rf.r1
  | .r2 => rf.r2
  | .r3 => rf.r3
  | .r4 => rf.r4
  | .r5 => rf.r5
  | .r6 => rf.r6
  | .r7 => rf.r7
  | .r8 => rf.r8
  | .r9 => rf.r9

/-- The register file with a value, or none, in one general purpose register (R12). R10 has no write (R25). -/
def RegFile.set (rf : RegFile) (g : GReg) (v : Option Word) : RegFile :=
  match g with
  | .r0 => { rf with r0 := v }
  | .r1 => { rf with r1 := v }
  | .r2 => { rf with r2 := v }
  | .r3 => { rf with r3 := v }
  | .r4 => { rf with r4 := v }
  | .r5 => { rf with r5 := v }
  | .r6 => { rf with r6 := v }
  | .r7 => { rf with r7 := v }
  | .r8 => { rf with r8 := v }
  | .r9 => { rf with r9 := v }

/-- `x[i]`: the value of a register, or the fault of a register that holds none (R12, R24). R10 always holds one. -/
def State.read (s : State) : Reg → Except FaultInfo Word
  | .r10 => .ok s.regs.r10
  | .gpr g =>
    match s.regs.get g with
    | some v => .ok v
    | none => .error (.uninitRegister g)

/-- `x[i] <- v` (R12). -/
def State.put (s : State) (g : GReg) (v : Word) : State := { s with regs := s.regs.set g (some v) }

/-! ### Raising a fault, ending a run, moving the program counter -/

/-- `raise Fault(kind, info)`: nothing changes but OUT, which becomes `faulted(kind, info)` (R300, R303). The fault is
final (R306): the spec has no handler to enter and no return from one (R311, R312). -/
def raiseFault (f : FaultInfo) (s : State) : Result := .next { s with out := .faulted f }

/-- `exit(v)`: nothing changes but OUT, which becomes `exited(v)` (R300, R301). -/
def endRun (v : Word) (s : State) : Result := .next { s with out := .exited v }

/-- The result of an instruction whose pseudocode ran to `r` from the state `s`: the state it gives, or `s` with the
fault it raised (R300 step 3). -/
def complete (s : State) (r : Except FaultInfo State) : Result :=
  match r with
  | .ok t => .next t
  | .error f => raiseFault f s

/-- `pc <- pc + 1` (R27). -/
def State.advance (s : State) : State := { s with pc := s.pc + 1 }

/-- `pc <- pc + 1 + s(offset)`: a taken jump (R27, R173). -/
def State.jump (s : State) (off : BitVec 16) : State := { s with pc := s.pc + 1 + off.toInt }

/-- A conditional jump: taken or not (R173). -/
def State.branch (s : State) (taken : Bool) (off : BitVec 16) : State :=
  if taken then s.jump off else s.advance

/-! ### Free values -/

/-- The value of a result, or the next draw where it is unspecified (R14, R103; log 5). -/
def State.resultOr {n : Nat} (s : State) (o : Option (BitVec n)) : BitVec n :=
  match o with
  | some v => v
  | none => Config.draw n s.draws

/-- The count of draws after a result that may have been one. -/
def State.afterResult {n : Nat} (s : State) (o : Option (BitVec n)) : State :=
  match o with
  | some _ => s
  | none => { s with draws := s.draws + 1 }

/-! ### Arithmetic shapes (R101, R102, R106) -/

/-- 32-bit operation on dst and imm. -/
def alu32K (f : BitVec 32 → BitVec 32 → BitVec 32) (dst : GReg) (imm : BitVec 32) (s : State) : Result :=
  complete s do
    let d ← s.read (.gpr dst)
    return (s.put dst (zext64 (f (low32 d) imm))).advance

/-- 32-bit operation on dst and src. -/
def alu32X (f : BitVec 32 → BitVec 32 → BitVec 32) (dst : GReg) (src : Reg) (s : State) : Result :=
  complete s do
    let d ← s.read (.gpr dst)
    let v ← s.read src
    return (s.put dst (zext64 (f (low32 d) (low32 v)))).advance

/-- 64-bit operation on dst and imm. -/
def alu64K (f : Word → Word → Word) (dst : GReg) (imm : BitVec 32) (s : State) : Result :=
  complete s do
    let d ← s.read (.gpr dst)
    return (s.put dst (f d (immOperand imm))).advance

/-- 64-bit operation on dst and src. -/
def alu64X (f : Word → Word → Word) (dst : GReg) (src : Reg) (s : State) : Result :=
  complete s do
    let d ← s.read (.gpr dst)
    let v ← s.read src
    return (s.put dst (f d v)).advance

/-- 32-bit shift of dst by imm (R103). -/
def shift32K (op : BitVec 32 → Nat → BitVec 32) (dst : GReg) (imm : BitVec 32) (s : State) : Result :=
  complete s do
    let d ← s.read (.gpr dst)
    let r := shiftOp 32 op s.par.shiftPolicy (low32 d) imm.toNat
    return ((s.afterResult r).put dst (zext64 (s.resultOr r))).advance

/-- 32-bit shift of dst by the low half of src (R103). -/
def shift32X (op : BitVec 32 → Nat → BitVec 32) (dst : GReg) (src : Reg) (s : State) : Result :=
  complete s do
    let d ← s.read (.gpr dst)
    let v ← s.read src
    let r := shiftOp 32 op s.par.shiftPolicy (low32 d) (low32 v).toNat
    return ((s.afterResult r).put dst (zext64 (s.resultOr r))).advance

/-- 64-bit shift of dst by imm (R103). -/
def shift64K (op : Word → Nat → Word) (dst : GReg) (imm : BitVec 32) (s : State) : Result :=
  complete s do
    let d ← s.read (.gpr dst)
    let r := shiftOp 64 op s.par.shiftPolicy d (immOperand imm).toNat
    return ((s.afterResult r).put dst (s.resultOr r)).advance

/-- 64-bit shift of dst by src (R103). -/
def shift64X (op : Word → Nat → Word) (dst : GReg) (src : Reg) (s : State) : Result :=
  complete s do
    let d ← s.read (.gpr dst)
    let v ← s.read src
    let r := shiftOp 64 op s.par.shiftPolicy d v.toNat
    return ((s.afterResult r).put dst (s.resultOr r)).advance

/-- A result from imm alone: dst is not read (R140, R142, R152, R154). -/
def writeK (f : BitVec 32 → Word) (dst : GReg) (imm : BitVec 32) (s : State) : Result :=
  complete s (.ok (s.put dst (f imm)).advance)

/-- A result from one register (R141, R143, R153, R155, and R105 under `negate_dst`). -/
def writeX (f : Word → Word) (dst : GReg) (src : Reg) (s : State) : Result :=
  complete s do
    let v ← s.read src
    return (s.put dst (f v)).advance

/-- BPF_NEG with BPF_K: the complement of imm, or under `negate_dst` the negation of dst, for imm = 0 alone (R105). -/
def negK (complement : BitVec 32 → Word) (negate : Word → Word) (dst : GReg) (imm : BitVec 32) (s : State) : Result :=
  match s.par.negReading with
  | .literal => writeK complement dst imm s
  | .negateDst => if imm = 0 then writeX negate dst (.gpr dst) s else .refused (.word .nonzeroUnusedField)

/-- BPF_NEG with BPF_X: the complement of src; no such instruction under `negate_dst` (R105). -/
def negX (complement : Word → Word) (dst : GReg) (src : Reg) (s : State) : Result :=
  match s.par.negReading with
  | .literal => writeX complement dst src s
  | .negateDst => .refused (.word .illegalOpcode)

/-- A byte swap of the `n` low bytes of dst to or from a byte order (R160 to R162). -/
def endSwap (target : Endian) (n : Nat) (dst : GReg) (s : State) : Result :=
  writeX (endOp s.par.hostEndian target n) dst (.gpr dst) s

/-! ### Jump shapes (R170, R173, R174) -/

/-- 64-bit comparison of dst with imm. -/
def jump64K (c : Word → Word → Bool) (dst : Reg) (imm : BitVec 32) (off : BitVec 16) (s : State) : Result :=
  complete s do
    let d ← s.read dst
    return s.branch (c d (immOperand imm)) off

/-- 64-bit comparison of dst with src. -/
def jump64X (c : Word → Word → Bool) (dst src : Reg) (off : BitVec 16) (s : State) : Result :=
  complete s do
    let d ← s.read dst
    let v ← s.read src
    return s.branch (c d v) off

/-- 32-bit comparison of dst with imm. -/
def jump32K (c : BitVec 32 → BitVec 32 → Bool) (dst : Reg) (imm : BitVec 32) (off : BitVec 16) (s : State) : Result :=
  complete s do
    let d ← s.read dst
    return s.branch (c (low32 d) imm) off

/-- 32-bit comparison of dst with src. -/
def jump32X (c : BitVec 32 → BitVec 32 → Bool) (dst src : Reg) (off : BitVec 16) (s : State) : Result :=
  complete s do
    let d ← s.read dst
    let v ← s.read src
    return s.branch (c (low32 d) (low32 v)) off

/-! ### Load and store shapes (R230 to R233) -/

/-- Load of a size into dst from `[src+off]` (R231). -/
def loadReg (sz : Size) (dst : GReg) (src : Reg) (off : BitVec 16) (s : State) : Result :=
  complete s do
    let base ← s.read src
    let (v, t) ← memRead s (effAddr base off) sz
    return (t.put dst v).advance

/-- Store of the low bytes of imm, sign-extended, to `[dst+off]` (R232). -/
def storeImm (sz : Size) (dst : Reg) (off : BitVec 16) (imm : BitVec 32) (s : State) : Result :=
  complete s do
    let base ← s.read dst
    let t ← memWrite s (effAddr base off) sz (immOperand imm)
    return t.advance

/-- Store of the low bytes of src to `[dst+off]` (R232). -/
def storeReg (sz : Size) (dst src : Reg) (off : BitVec 16) (s : State) : Result :=
  complete s do
    let base ← s.read dst
    let v ← s.read src
    let t ← memWrite s (effAddr base off) sz v
    return t.advance

/-! ### Atomic shapes (R251 to R253) -/

/-- A 32-bit operation on 64-bit words that hold 32-bit values. -/
def on32 (f : BitVec 32 → BitVec 32 → BitVec 32) (old v : Word) : Word := zext64 (f (low32 old) (low32 v))

/-- A simple atomic operation: the old value goes nowhere. -/
def atomicPlain (sz : Size) (f : Word → Word → Word) (dst src : Reg) (off : BitVec 16) (s : State) : Result :=
  complete s do
    let base ← s.read dst
    let v ← s.read src
    let (_, t) ← atomicRMW s (effAddr base off) sz fun o => some (f o v)
    return t.advance

/-- An atomic operation with BPF_FETCH: src receives the old value, zero-extended (R252). -/
def atomicFetch (sz : Size) (f : Word → Word → Word) (dst : Reg) (src : GReg) (off : BitVec 16) (s : State) : Result :=
  complete s do
    let base ← s.read dst
    let v ← s.read (.gpr src)
    let (old, t) ← atomicRMW s (effAddr base off) sz fun o => some (f o v)
    return (t.put src old).advance

/-- Compare and exchange: src is stored where the old value equals R0 in the size's low bytes; R0 receives the old
value, zero-extended, in either case (R272, R273). -/
def atomicCmpxchg (sz : Size) (dst src : Reg) (off : BitVec 16) (s : State) : Result :=
  complete s do
    let base ← s.read dst
    let v ← s.read src
    let c ← s.read (.gpr .r0)
    let (old, t) ← atomicRMW s (effAddr base off) sz fun o =>
      if o = lowBytes sz.bytes c then some (lowBytes sz.bytes v) else none
    return (t.put .r0 old).advance

/-! ### Function calls (R220, R221, R224) -/

/-- The argument registers R1 to R5, in order. -/
def argRegs : List GReg := [.r1, .r2, .r3, .r4, .r5]

/-- The values of registers, in order: the fault of the first that holds none (R309). -/
def State.readAll (s : State) : List GReg → Except FaultInfo (List Word)
  | [] => .ok []
  | g :: gs => do
    let v ← s.read (.gpr g)
    let vs ← s.readAll gs
    return v :: vs

/-- The entry of `HELPERS` for a number. -/
def findHelper (par : Params) (number : BitVec 32) : Option Helper :=
  par.helpers.find? fun h => decide (h.number = number)

/-- An address lies in a range of addresses. -/
def spanHolds (p : Span) (a : Nat) : Bool := decide (p.base.toNat ≤ a) && decide (a < p.base.toNat + p.length)

/-- Whether a function may change the byte at an address: inside a region of `MEM`, and where its description says it
may (R221; log 8). -/
def helperMayWrite (par : Params) (h : Helper) (a : Nat) : Bool :=
  decide (a < 2 ^ 64) && par.regions.any (fun r => regionCovers r a 1) && h.mayWrite.any (fun p => spanHolds p a)

/-- Whether the byte at an address lies in a shared region (R55). -/
def sharedByte (par : Params) (a : Nat) : Bool := par.regions.any fun r => r.shared && regionCovers r a 1

/-- Writing bytes, in order. -/
def Memory.setCells : Memory → List Host.Cell → Memory
  | m, [] => m
  | m, (a, b) :: cs => Memory.setCells (Memory.set m a b) cs

/-- What a called function has done so far: the values known to its description, the bytes it has written, its
accesses to shared regions, and the run's count of draws. -/
structure HelperRun where
  known  : List Word
  writes : List Host.Cell
  events : List Event
  draws  : Nat
deriving DecidableEq, Repr

/-- An operation of a description: 0 for a division by 0 and for a shift by 64 or more, the operand for a remainder by 0.
These are the meaning of the notation (log 8), not of an instruction. -/
def applyHelperOp : HelperOp → Word → Word → Word
  | .add, a, b => a + b
  | .sub, a, b => a - b
  | .mul, a, b => a * b
  | .udiv, a, b => divOp 64 a b
  | .umod, a, b => modOp 64 a b
  | .and, a, b => a &&& b
  | .or, a, b => a ||| b
  | .xor, a, b => a ^^^ b
  | .shl, a, b => if b.toNat < 64 then a <<< b.toNat else 0
  | .shr, a, b => if b.toNat < 64 then a >>> b.toNat else 0
  | .eq, a, b => if a = b then 1 else 0
  | .ult, a, b => if a.toNat < b.toNat then 1 else 0
  | .slt, a, b => if a.toInt < b.toInt then 1 else 0

/-- The value of an expression of a description; a `known` that there is not is 0 (log 8). -/
def evalHelper : HelperExpr → List Word → Word
  | .const v, _ => v
  | .known i, ks => ks.getD i 0
  | .op o a b, ks => applyHelperOp o (evalHelper a ks) (evalHelper b ks)

/-- A byte of DATA that a function reads: drawn in a shared region, where the access is an event (R44, R58 d), and else
the byte it has last written itself, or that of DATA. -/
def State.helperRead (s : State) (addr : Word) (w : HelperRun) : HelperRun :=
  if sharedByte s.par addr.toNat then
    let v := (Config.draw 8 w.draws).setWidth 64
    { w with known := w.known ++ [v], events := w.events ++ [.read .thisRun addr 1 v], draws := w.draws + 1 }
  else
    let t := { s with mem := Memory.setCells s.mem w.writes }
    { w with known := w.known ++ [(t.byteAt addr.toNat).setWidth 64] }

/-- A byte that a function writes, if it may (R221); in a shared region the access is an event (R58 d). -/
def State.helperWrite (s : State) (h : Helper) (w : HelperRun) (c : Host.Cell) : HelperRun :=
  if helperMayWrite s.par h c.1 then
    { w with
      writes := w.writes ++ [c]
      events := if sharedByte s.par c.1 then
          w.events ++ [.write .thisRun (BitVec.ofNat 64 c.1) 1 (c.2.setWidth 64)] else w.events }
  else w

/-- A free 64-bit value for a description (R14, R221). -/
def HelperRun.drawValue (w : HelperRun) : HelperRun :=
  { w with known := w.known ++ [Config.draw 64 w.draws], draws := w.draws + 1 }

/-- What a description does from a point on (R221): the value it returns and all the function has done, or `none` where
it faults. -/
def State.runHelper (s : State) (h : Helper) : HelperCode → HelperRun → Option (Word × HelperRun)
  | .readByte addr next, w => s.runHelper h next (s.helperRead (evalHelper addr w.known) w)
  | .drawValue next, w => s.runHelper h next w.drawValue
  | .writeByte addr value next, w =>
    s.runHelper h next (s.helperWrite h w ((evalHelper addr w.known).toNat, (evalHelper value w.known).setWidth 8))
  | .test value yes no, w => if evalHelper value w.known ≠ 0 then s.runHelper h yes w else s.runHelper h no w
  | .returns ret, w => some (evalHelper ret w.known, w)
  | .faults, _ => none
  | .free, w =>
    match Config.helperDraw h.number w.known (Memory.setCells s.mem w.writes) w.draws with
    | .faults => none
    | .returns ret cs => some (ret, cs.foldl (s.helperWrite h) { w with draws := w.draws + 1 })

/-- `f.call(a_1..a_nargs, DATA)` (R224): what the called function does, or `none` where it faults. -/
def State.helperCall (s : State) (h : Helper) (args : List Word) : Option (Word × HelperRun) :=
  s.runHelper h h.body ⟨args, [], [], s.draws⟩

/-- `DATA <- DATA'` of a call (R224), with its events (R58 d) and its draws. -/
def State.afterHelper (s : State) (w : HelperRun) : State :=
  { s with mem := Memory.setCells s.mem w.writes, history := s.history ++ w.events, draws := w.draws }

/-- After a call R1 to R5 hold no value (R220, R224). -/
def State.dropArgs (s : State) : State :=
  { s with regs := { s.regs with r1 := none, r2 := none, r3 := none, r4 := none, r5 := none } }

/-- BPF_CALL (R224), the whole call one step. -/
def callFunction (imm : BitVec 32) (s : State) : Result :=
  complete s <|
    match findHelper s.par imm with
    | none => .error (.unknownFunction imm)
    | some h => do
      let args ← s.readAll (argRegs.take h.nargs.val)
      match s.helperCall h args with
      | none => .error (.helperFault imm)
      | some (ret, w) => return (((s.afterHelper w).put .r0 ret).dropArgs).advance

/-- BPF_EXIT (R225): the run ends with the value of R0. -/
def exitProgram (s : State) : Result :=
  match s.read (.gpr .r0) with
  | .ok v => endRun v s
  | .error f => raiseFault f s

/-! ### Fetching -/

/-- The word at `pc` and the word at the next slot, if there is one; `none` where `pc` is outside the program
(R28, R300). -/
def fetch (s : State) : Option (Word × Option Word) :=
  if 0 ≤ s.pc then
    match s.par.program[s.pc.toNat]? with
    | some w => some (w, s.par.program[s.pc.toNat + 1]?)
    | none => none
  else none

/-- The program text with a word at a slot; slots before it that the text does not have hold the word zero (log 4). -/
def setSlot : List Word → Nat → Word → List Word
  | [], 0, w => [w]
  | [], n + 1, w => 0 :: setSlot [] n w
  | _ :: ps, 0, w => w :: ps
  | p :: ps, n + 1, w => p :: setSlot ps n w

end Sys2Proof.Machine
end

