-- ==== Sys2Proof/Machine/Alu32.lean ====
section
/-! DEFINITION. The 32-bit arithmetic instructions, class ALU (40_alu.md). Where a doc says dst, src or imm is an operand, its low 32 bits are; the result is zero-extended (R101). -/

namespace Sys2Proof.Machine

/-- `add32 rD, imm` (R108): dst + imm, wrapping. -/
def execAdd32K (dst : GReg) (imm : BitVec 32) (s : State) : Result :=
  alu32K (· + ·) dst imm s

/-- `add32 rD, rS` (R109): dst + src, wrapping. -/
def execAdd32X (dst : GReg) (src : Reg) (s : State) : Result :=
  alu32X (· + ·) dst src s

/-- `sub32 rD, imm` (R112): dst - imm, wrapping. -/
def execSub32K (dst : GReg) (imm : BitVec 32) (s : State) : Result :=
  alu32K (· - ·) dst imm s

/-- `sub32 rD, rS` (R113): dst - src, wrapping. -/
def execSub32X (dst : GReg) (src : Reg) (s : State) : Result :=
  alu32X (· - ·) dst src s

/-- `mul32 rD, imm` (R116): dst * imm, its low bits. -/
def execMul32K (dst : GReg) (imm : BitVec 32) (s : State) : Result :=
  alu32K (· * ·) dst imm s

/-- `mul32 rD, rS` (R117): dst * src, its low bits. -/
def execMul32X (dst : GReg) (src : Reg) (s : State) : Result :=
  alu32X (· * ·) dst src s

/-- `div32 rD, imm` (R120): unsigned dst / imm, 0 for a zero divisor (R104). -/
def execDiv32K (dst : GReg) (imm : BitVec 32) (s : State) : Result :=
  alu32K (divOp 32) dst imm s

/-- `div32 rD, rS` (R121): unsigned dst / src, 0 for a zero divisor (R104). -/
def execDiv32X (dst : GReg) (src : Reg) (s : State) : Result :=
  alu32X (divOp 32) dst src s

/-- `or32 rD, imm` (R124): dst or imm. -/
def execOr32K (dst : GReg) (imm : BitVec 32) (s : State) : Result :=
  alu32K (· ||| ·) dst imm s

/-- `or32 rD, rS` (R125): dst or src. -/
def execOr32X (dst : GReg) (src : Reg) (s : State) : Result :=
  alu32X (· ||| ·) dst src s

/-- `and32 rD, imm` (R128): dst and imm. -/
def execAnd32K (dst : GReg) (imm : BitVec 32) (s : State) : Result :=
  alu32K (· &&& ·) dst imm s

/-- `and32 rD, rS` (R129): dst and src. -/
def execAnd32X (dst : GReg) (src : Reg) (s : State) : Result :=
  alu32X (· &&& ·) dst src s

/-- `lsh32 rD, imm` (R132): dst shifted left by imm (R103). -/
def execLsh32K (dst : GReg) (imm : BitVec 32) (s : State) : Result :=
  shift32K (· <<< ·) dst imm s

/-- `lsh32 rD, rS` (R133): dst shifted left by src (R103). -/
def execLsh32X (dst : GReg) (src : Reg) (s : State) : Result :=
  shift32X (· <<< ·) dst src s

/-- `rsh32 rD, imm` (R136): dst shifted right by imm, zeros in (R103). -/
def execRsh32K (dst : GReg) (imm : BitVec 32) (s : State) : Result :=
  shift32K (· >>> ·) dst imm s

/-- `rsh32 rD, rS` (R137): dst shifted right by src, zeros in (R103). -/
def execRsh32X (dst : GReg) (src : Reg) (s : State) : Result :=
  shift32X (· >>> ·) dst src s

/-- `neg32 rD, imm` (R140): the complement of imm; under negate_dst the negation of dst (R105). -/
def execNeg32K (dst : GReg) (imm : BitVec 32) (s : State) : Result :=
  negK (fun k => zext64 (~~~k)) (fun v => zext64 (-low32 v)) dst imm s

/-- `neg32 rD, rS` (R141): the complement of src; not an instruction under negate_dst (R105). -/
def execNeg32X (dst : GReg) (src : Reg) (s : State) : Result :=
  negX (fun v => zext64 (~~~(low32 v))) dst src s

/-- `mod32 rD, imm` (R144): unsigned dst mod imm, dst for a zero divisor (R104). -/
def execMod32K (dst : GReg) (imm : BitVec 32) (s : State) : Result :=
  alu32K (modOp 32) dst imm s

/-- `mod32 rD, rS` (R145): unsigned dst mod src, dst for a zero divisor (R104). -/
def execMod32X (dst : GReg) (src : Reg) (s : State) : Result :=
  alu32X (modOp 32) dst src s

/-- `xor32 rD, imm` (R148): dst xor imm. -/
def execXor32K (dst : GReg) (imm : BitVec 32) (s : State) : Result :=
  alu32K (· ^^^ ·) dst imm s

/-- `xor32 rD, rS` (R149): dst xor src. -/
def execXor32X (dst : GReg) (src : Reg) (s : State) : Result :=
  alu32X (· ^^^ ·) dst src s

/-- `mov32 rD, imm` (R152): imm into dst. -/
def execMov32K (dst : GReg) (imm : BitVec 32) (s : State) : Result :=
  writeK zext64 dst imm s

/-- `mov32 rD, rS` (R153): src into dst. -/
def execMov32X (dst : GReg) (src : Reg) (s : State) : Result :=
  writeX (fun v => zext64 (low32 v)) dst src s

/-- `arsh32 rD, imm` (R156): dst shifted right by imm, the sign in (R103). -/
def execArsh32K (dst : GReg) (imm : BitVec 32) (s : State) : Result :=
  shift32K BitVec.sshiftRight dst imm s

/-- `arsh32 rD, rS` (R157): dst shifted right by src, the sign in (R103). -/
def execArsh32X (dst : GReg) (src : Reg) (s : State) : Result :=
  shift32X BitVec.sshiftRight dst src s

end Sys2Proof.Machine
end

