-- ==== Sys2Proof/Machine/Alu64.lean ====
section
/-! DEFINITION. The 64-bit arithmetic instructions, class ALU64 (40_alu.md). imm is sign-extended (R77, R101). -/

namespace Sys2Proof.Machine

/-- `add64 rD, imm` (R110): dst + imm, wrapping. -/
def execAdd64K (dst : GReg) (imm : BitVec 32) (s : State) : Result :=
  alu64K (· + ·) dst imm s

/-- `add64 rD, rS` (R111): dst + src, wrapping. -/
def execAdd64X (dst : GReg) (src : Reg) (s : State) : Result :=
  alu64X (· + ·) dst src s

/-- `sub64 rD, imm` (R114): dst - imm, wrapping. -/
def execSub64K (dst : GReg) (imm : BitVec 32) (s : State) : Result :=
  alu64K (· - ·) dst imm s

/-- `sub64 rD, rS` (R115): dst - src, wrapping. -/
def execSub64X (dst : GReg) (src : Reg) (s : State) : Result :=
  alu64X (· - ·) dst src s

/-- `mul64 rD, imm` (R118): dst * imm, its low bits. -/
def execMul64K (dst : GReg) (imm : BitVec 32) (s : State) : Result :=
  alu64K (· * ·) dst imm s

/-- `mul64 rD, rS` (R119): dst * src, its low bits. -/
def execMul64X (dst : GReg) (src : Reg) (s : State) : Result :=
  alu64X (· * ·) dst src s

/-- `div64 rD, imm` (R122): unsigned dst / imm, 0 for a zero divisor (R104). -/
def execDiv64K (dst : GReg) (imm : BitVec 32) (s : State) : Result :=
  alu64K (divOp 64) dst imm s

/-- `div64 rD, rS` (R123): unsigned dst / src, 0 for a zero divisor (R104). -/
def execDiv64X (dst : GReg) (src : Reg) (s : State) : Result :=
  alu64X (divOp 64) dst src s

/-- `or64 rD, imm` (R126): dst or imm. -/
def execOr64K (dst : GReg) (imm : BitVec 32) (s : State) : Result :=
  alu64K (· ||| ·) dst imm s

/-- `or64 rD, rS` (R127): dst or src. -/
def execOr64X (dst : GReg) (src : Reg) (s : State) : Result :=
  alu64X (· ||| ·) dst src s

/-- `and64 rD, imm` (R130): dst and imm. -/
def execAnd64K (dst : GReg) (imm : BitVec 32) (s : State) : Result :=
  alu64K (· &&& ·) dst imm s

/-- `and64 rD, rS` (R131): dst and src. -/
def execAnd64X (dst : GReg) (src : Reg) (s : State) : Result :=
  alu64X (· &&& ·) dst src s

/-- `lsh64 rD, imm` (R134): dst shifted left by imm (R103). -/
def execLsh64K (dst : GReg) (imm : BitVec 32) (s : State) : Result :=
  shift64K (· <<< ·) dst imm s

/-- `lsh64 rD, rS` (R135): dst shifted left by src (R103). -/
def execLsh64X (dst : GReg) (src : Reg) (s : State) : Result :=
  shift64X (· <<< ·) dst src s

/-- `rsh64 rD, imm` (R138): dst shifted right by imm, zeros in (R103). -/
def execRsh64K (dst : GReg) (imm : BitVec 32) (s : State) : Result :=
  shift64K (· >>> ·) dst imm s

/-- `rsh64 rD, rS` (R139): dst shifted right by src, zeros in (R103). -/
def execRsh64X (dst : GReg) (src : Reg) (s : State) : Result :=
  shift64X (· >>> ·) dst src s

/-- `neg64 rD, imm` (R142): the complement of imm; under negate_dst the negation of dst (R105). -/
def execNeg64K (dst : GReg) (imm : BitVec 32) (s : State) : Result :=
  negK (fun k => ~~~(immOperand k)) (fun v => -v) dst imm s

/-- `neg64 rD, rS` (R143): the complement of src; not an instruction under negate_dst (R105). -/
def execNeg64X (dst : GReg) (src : Reg) (s : State) : Result :=
  negX (fun v => ~~~v) dst src s

/-- `mod64 rD, imm` (R146): unsigned dst mod imm, dst for a zero divisor (R104). -/
def execMod64K (dst : GReg) (imm : BitVec 32) (s : State) : Result :=
  alu64K (modOp 64) dst imm s

/-- `mod64 rD, rS` (R147): unsigned dst mod src, dst for a zero divisor (R104). -/
def execMod64X (dst : GReg) (src : Reg) (s : State) : Result :=
  alu64X (modOp 64) dst src s

/-- `xor64 rD, imm` (R150): dst xor imm. -/
def execXor64K (dst : GReg) (imm : BitVec 32) (s : State) : Result :=
  alu64K (· ^^^ ·) dst imm s

/-- `xor64 rD, rS` (R151): dst xor src. -/
def execXor64X (dst : GReg) (src : Reg) (s : State) : Result :=
  alu64X (· ^^^ ·) dst src s

/-- `mov64 rD, imm` (R154): imm into dst. -/
def execMov64K (dst : GReg) (imm : BitVec 32) (s : State) : Result :=
  writeK immOperand dst imm s

/-- `mov64 rD, rS` (R155): src into dst. -/
def execMov64X (dst : GReg) (src : Reg) (s : State) : Result :=
  writeX (fun v => v) dst src s

/-- `arsh64 rD, imm` (R158): dst shifted right by imm, the sign in (R103). -/
def execArsh64K (dst : GReg) (imm : BitVec 32) (s : State) : Result :=
  shift64K BitVec.sshiftRight dst imm s

/-- `arsh64 rD, rS` (R159): dst shifted right by src, the sign in (R103). -/
def execArsh64X (dst : GReg) (src : Reg) (s : State) : Result :=
  shift64X BitVec.sshiftRight dst src s

end Sys2Proof.Machine
end

