-- ==== Sys2Proof/Machine/Atomic.lean ====
section
/-! DEFINITION. The atomic operations (44_atomic.md). -/

namespace Sys2Proof.Machine

/-- `atomic_add32 [rD+off], rS` (R254): memory add src, in one step. -/
def execAtomicAdd32 (dst src : Reg) (off : BitVec 16) (s : State) : Result :=
  atomicPlain .w (on32 (· + ·)) dst src off s

/-- `atomic_add64 [rD+off], rS` (R255): memory add src, in one step. -/
def execAtomicAdd64 (dst src : Reg) (off : BitVec 16) (s : State) : Result :=
  atomicPlain .dw (· + ·) dst src off s

/-- `atomic_or32 [rD+off], rS` (R256): memory or src, in one step. -/
def execAtomicOr32 (dst src : Reg) (off : BitVec 16) (s : State) : Result :=
  atomicPlain .w (on32 (· ||| ·)) dst src off s

/-- `atomic_or64 [rD+off], rS` (R257): memory or src, in one step. -/
def execAtomicOr64 (dst src : Reg) (off : BitVec 16) (s : State) : Result :=
  atomicPlain .dw (· ||| ·) dst src off s

/-- `atomic_and32 [rD+off], rS` (R258): memory and src, in one step. -/
def execAtomicAnd32 (dst src : Reg) (off : BitVec 16) (s : State) : Result :=
  atomicPlain .w (on32 (· &&& ·)) dst src off s

/-- `atomic_and64 [rD+off], rS` (R259): memory and src, in one step. -/
def execAtomicAnd64 (dst src : Reg) (off : BitVec 16) (s : State) : Result :=
  atomicPlain .dw (· &&& ·) dst src off s

/-- `atomic_xor32 [rD+off], rS` (R260): memory xor src, in one step. -/
def execAtomicXor32 (dst src : Reg) (off : BitVec 16) (s : State) : Result :=
  atomicPlain .w (on32 (· ^^^ ·)) dst src off s

/-- `atomic_xor64 [rD+off], rS` (R261): memory xor src, in one step. -/
def execAtomicXor64 (dst src : Reg) (off : BitVec 16) (s : State) : Result :=
  atomicPlain .dw (· ^^^ ·) dst src off s

/-- `atomic_fetch_add32 [rD+off], rS` (R262): memory add src, in one step; src receives the old value. -/
def execAtomicFetchAdd32 (dst : Reg) (src : GReg) (off : BitVec 16) (s : State) : Result :=
  atomicFetch .w (on32 (· + ·)) dst src off s

/-- `atomic_fetch_add64 [rD+off], rS` (R263): memory add src, in one step; src receives the old value. -/
def execAtomicFetchAdd64 (dst : Reg) (src : GReg) (off : BitVec 16) (s : State) : Result :=
  atomicFetch .dw (· + ·) dst src off s

/-- `atomic_fetch_or32 [rD+off], rS` (R264): memory or src, in one step; src receives the old value. -/
def execAtomicFetchOr32 (dst : Reg) (src : GReg) (off : BitVec 16) (s : State) : Result :=
  atomicFetch .w (on32 (· ||| ·)) dst src off s

/-- `atomic_fetch_or64 [rD+off], rS` (R265): memory or src, in one step; src receives the old value. -/
def execAtomicFetchOr64 (dst : Reg) (src : GReg) (off : BitVec 16) (s : State) : Result :=
  atomicFetch .dw (· ||| ·) dst src off s

/-- `atomic_fetch_and32 [rD+off], rS` (R266): memory and src, in one step; src receives the old value. -/
def execAtomicFetchAnd32 (dst : Reg) (src : GReg) (off : BitVec 16) (s : State) : Result :=
  atomicFetch .w (on32 (· &&& ·)) dst src off s

/-- `atomic_fetch_and64 [rD+off], rS` (R267): memory and src, in one step; src receives the old value. -/
def execAtomicFetchAnd64 (dst : Reg) (src : GReg) (off : BitVec 16) (s : State) : Result :=
  atomicFetch .dw (· &&& ·) dst src off s

/-- `atomic_fetch_xor32 [rD+off], rS` (R268): memory xor src, in one step; src receives the old value. -/
def execAtomicFetchXor32 (dst : Reg) (src : GReg) (off : BitVec 16) (s : State) : Result :=
  atomicFetch .w (on32 (· ^^^ ·)) dst src off s

/-- `atomic_fetch_xor64 [rD+off], rS` (R269): memory xor src, in one step; src receives the old value. -/
def execAtomicFetchXor64 (dst : Reg) (src : GReg) (off : BitVec 16) (s : State) : Result :=
  atomicFetch .dw (· ^^^ ·) dst src off s

/-- `atomic_xchg32 [rD+off], rS` (R270): src exchanged with memory; src receives the old value. -/
def execAtomicXchg32 (dst : Reg) (src : GReg) (off : BitVec 16) (s : State) : Result :=
  atomicFetch .w (on32 (fun _ v => v)) dst src off s

/-- `atomic_xchg64 [rD+off], rS` (R271): src exchanged with memory; src receives the old value. -/
def execAtomicXchg64 (dst : Reg) (src : GReg) (off : BitVec 16) (s : State) : Result :=
  atomicFetch .dw (fun _ v => v) dst src off s

/-- `atomic_cmpxchg32 [rD+off], rS` (R272): src stored where the old value equals R0; R0 receives the old value. -/
def execAtomicCmpxchg32 (dst src : Reg) (off : BitVec 16) (s : State) : Result :=
  atomicCmpxchg .w dst src off s

/-- `atomic_cmpxchg64 [rD+off], rS` (R273): src stored where the old value equals R0; R0 receives the old value. -/
def execAtomicCmpxchg64 (dst src : Reg) (off : BitVec 16) (s : State) : Result :=
  atomicCmpxchg .dw dst src off s

end Sys2Proof.Machine
end

