-- ==== Sys2Proof/Machine/ByteSwap.lean ====
section
/-! DEFINITION. The byte swap instructions (41_byteswap.md). -/

namespace Sys2Proof.Machine

/-- `le16 rD` (R163, R162): the low 16 bits of dst, host order to or from little endian. -/
def execLe16 (dst : GReg) (s : State) : Result :=
  endSwap .little 2 dst s

/-- `le32 rD` (R164, R162): the low 32 bits of dst, host order to or from little endian. -/
def execLe32 (dst : GReg) (s : State) : Result :=
  endSwap .little 4 dst s

/-- `le64 rD` (R165, R162): the low 64 bits of dst, host order to or from little endian. -/
def execLe64 (dst : GReg) (s : State) : Result :=
  endSwap .little 8 dst s

/-- `be16 rD` (R166, R162): the low 16 bits of dst, host order to or from big endian. -/
def execBe16 (dst : GReg) (s : State) : Result :=
  endSwap .big 2 dst s

/-- `be32 rD` (R167, R162): the low 32 bits of dst, host order to or from big endian. -/
def execBe32 (dst : GReg) (s : State) : Result :=
  endSwap .big 4 dst s

/-- `be64 rD` (R168, R162): the low 64 bits of dst, host order to or from big endian. -/
def execBe64 (dst : GReg) (s : State) : Result :=
  endSwap .big 8 dst s

end Sys2Proof.Machine
end

