-- ==== Sys2Proof/Machine/CallExit.lean ====
section
/-! DEFINITION. Function call and program exit (42_jump.md). -/

namespace Sys2Proof.Machine

/-- `call imm` (R224): the function of `HELPERS` with this number. -/
def execCall (imm : BitVec 32) (s : State) : Result :=
  callFunction imm s

/-- `exit` (R225): the run ends with the value of R0. -/
def execExit (s : State) : Result :=
  exitProgram s

end Sys2Proof.Machine
end

