-- ==== Sys2Proof/Machine/Imm64Legacy.lean ====
section
/-! DEFINITION. The 64-bit immediate load and the legacy packet loads (45_imm64_legacy.md). -/

namespace Sys2Proof.Machine

/-- `lddw rD, imm64` (R280): the 64-bit immediate into dst; the two slots are stepped over. -/
def execLddw (dst : GReg) (imm64 : Word) (s : State) : Result :=
  .next (s.put dst imm64).advance.advance

/-- `ldabsw` (R282): refused, `LegacyPacketAccess` (R305). -/
def execLdabsw (_rest : BitVec 56) (_s : State) : Result :=
  .refused (.word .legacyPacketAccess)

/-- `ldabsh` (R282): refused, `LegacyPacketAccess` (R305). -/
def execLdabsh (_rest : BitVec 56) (_s : State) : Result :=
  .refused (.word .legacyPacketAccess)

/-- `ldabsb` (R282): refused, `LegacyPacketAccess` (R305). -/
def execLdabsb (_rest : BitVec 56) (_s : State) : Result :=
  .refused (.word .legacyPacketAccess)

/-- `ldabsdw` (R282): refused, `LegacyPacketAccess` (R305). -/
def execLdabsdw (_rest : BitVec 56) (_s : State) : Result :=
  .refused (.word .legacyPacketAccess)

/-- `ldindw` (R283): refused, `LegacyPacketAccess` (R305). -/
def execLdindw (_rest : BitVec 56) (_s : State) : Result :=
  .refused (.word .legacyPacketAccess)

/-- `ldindh` (R283): refused, `LegacyPacketAccess` (R305). -/
def execLdindh (_rest : BitVec 56) (_s : State) : Result :=
  .refused (.word .legacyPacketAccess)

/-- `ldindb` (R283): refused, `LegacyPacketAccess` (R305). -/
def execLdindb (_rest : BitVec 56) (_s : State) : Result :=
  .refused (.word .legacyPacketAccess)

/-- `ldinddw` (R283): refused, `LegacyPacketAccess` (R305). -/
def execLdinddw (_rest : BitVec 56) (_s : State) : Result :=
  .refused (.word .legacyPacketAccess)

end Sys2Proof.Machine
end

