-- ==== Sys2Proof/Machine/Jump32.lean ====
section
/-! DEFINITION. The 32-bit conditional jumps, class JMP32 (42_jump.md). -/

namespace Sys2Proof.Machine

/-- `jeq32 rD, imm, +n` (R177): taken where condEq holds. -/
def execJeq32K (dst : Reg) (imm : BitVec 32) (off : BitVec 16) (s : State) : Result :=
  jump32K condEq dst imm off s

/-- `jeq32 rD, rS, +n` (R178): taken where condEq holds. -/
def execJeq32X (dst src : Reg) (off : BitVec 16) (s : State) : Result :=
  jump32X condEq dst src off s

/-- `jgt32 rD, imm, +n` (R181): taken where condGt holds. -/
def execJgt32K (dst : Reg) (imm : BitVec 32) (off : BitVec 16) (s : State) : Result :=
  jump32K condGt dst imm off s

/-- `jgt32 rD, rS, +n` (R182): taken where condGt holds. -/
def execJgt32X (dst src : Reg) (off : BitVec 16) (s : State) : Result :=
  jump32X condGt dst src off s

/-- `jge32 rD, imm, +n` (R185): taken where condGe holds. -/
def execJge32K (dst : Reg) (imm : BitVec 32) (off : BitVec 16) (s : State) : Result :=
  jump32K condGe dst imm off s

/-- `jge32 rD, rS, +n` (R186): taken where condGe holds. -/
def execJge32X (dst src : Reg) (off : BitVec 16) (s : State) : Result :=
  jump32X condGe dst src off s

/-- `jset32 rD, imm, +n` (R189): taken where condSet holds. -/
def execJset32K (dst : Reg) (imm : BitVec 32) (off : BitVec 16) (s : State) : Result :=
  jump32K condSet dst imm off s

/-- `jset32 rD, rS, +n` (R190): taken where condSet holds. -/
def execJset32X (dst src : Reg) (off : BitVec 16) (s : State) : Result :=
  jump32X condSet dst src off s

/-- `jne32 rD, imm, +n` (R193): taken where condNe holds. -/
def execJne32K (dst : Reg) (imm : BitVec 32) (off : BitVec 16) (s : State) : Result :=
  jump32K condNe dst imm off s

/-- `jne32 rD, rS, +n` (R194): taken where condNe holds. -/
def execJne32X (dst src : Reg) (off : BitVec 16) (s : State) : Result :=
  jump32X condNe dst src off s

/-- `jsgt32 rD, imm, +n` (R197): taken where condSgt holds. -/
def execJsgt32K (dst : Reg) (imm : BitVec 32) (off : BitVec 16) (s : State) : Result :=
  jump32K condSgt dst imm off s

/-- `jsgt32 rD, rS, +n` (R198): taken where condSgt holds. -/
def execJsgt32X (dst src : Reg) (off : BitVec 16) (s : State) : Result :=
  jump32X condSgt dst src off s

/-- `jsge32 rD, imm, +n` (R201): taken where condSge holds. -/
def execJsge32K (dst : Reg) (imm : BitVec 32) (off : BitVec 16) (s : State) : Result :=
  jump32K condSge dst imm off s

/-- `jsge32 rD, rS, +n` (R202): taken where condSge holds. -/
def execJsge32X (dst src : Reg) (off : BitVec 16) (s : State) : Result :=
  jump32X condSge dst src off s

/-- `jlt32 rD, imm, +n` (R205): taken where condLt holds. -/
def execJlt32K (dst : Reg) (imm : BitVec 32) (off : BitVec 16) (s : State) : Result :=
  jump32K condLt dst imm off s

/-- `jlt32 rD, rS, +n` (R206): taken where condLt holds. -/
def execJlt32X (dst src : Reg) (off : BitVec 16) (s : State) : Result :=
  jump32X condLt dst src off s

/-- `jle32 rD, imm, +n` (R209): taken where condLe holds. -/
def execJle32K (dst : Reg) (imm : BitVec 32) (off : BitVec 16) (s : State) : Result :=
  jump32K condLe dst imm off s

/-- `jle32 rD, rS, +n` (R210): taken where condLe holds. -/
def execJle32X (dst src : Reg) (off : BitVec 16) (s : State) : Result :=
  jump32X condLe dst src off s

/-- `jslt32 rD, imm, +n` (R213): taken where condSlt holds. -/
def execJslt32K (dst : Reg) (imm : BitVec 32) (off : BitVec 16) (s : State) : Result :=
  jump32K condSlt dst imm off s

/-- `jslt32 rD, rS, +n` (R214): taken where condSlt holds. -/
def execJslt32X (dst src : Reg) (off : BitVec 16) (s : State) : Result :=
  jump32X condSlt dst src off s

/-- `jsle32 rD, imm, +n` (R217): taken where condSle holds. -/
def execJsle32K (dst : Reg) (imm : BitVec 32) (off : BitVec 16) (s : State) : Result :=
  jump32K condSle dst imm off s

/-- `jsle32 rD, rS, +n` (R218): taken where condSle holds. -/
def execJsle32X (dst src : Reg) (off : BitVec 16) (s : State) : Result :=
  jump32X condSle dst src off s

end Sys2Proof.Machine
end

