-- ==== Sys2Proof/Machine/Jump64.lean ====
section
/-! DEFINITION. The unconditional jump and the 64-bit conditional jumps, class JMP (42_jump.md). -/

namespace Sys2Proof.Machine

/-- `ja +n` (R172): pc + 1 + offset. -/
def execJa (off : BitVec 16) (s : State) : Result :=
  .next (s.jump off)

/-- `jeq rD, imm, +n` (R175): taken where condEq holds. -/
def execJeqK (dst : Reg) (imm : BitVec 32) (off : BitVec 16) (s : State) : Result :=
  jump64K condEq dst imm off s

/-- `jeq rD, rS, +n` (R176): taken where condEq holds. -/
def execJeqX (dst src : Reg) (off : BitVec 16) (s : State) : Result :=
  jump64X condEq dst src off s

/-- `jgt rD, imm, +n` (R179): taken where condGt holds. -/
def execJgtK (dst : Reg) (imm : BitVec 32) (off : BitVec 16) (s : State) : Result :=
  jump64K condGt dst imm off s

/-- `jgt rD, rS, +n` (R180): taken where condGt holds. -/
def execJgtX (dst src : Reg) (off : BitVec 16) (s : State) : Result :=
  jump64X condGt dst src off s

/-- `jge rD, imm, +n` (R183): taken where condGe holds. -/
def execJgeK (dst : Reg) (imm : BitVec 32) (off : BitVec 16) (s : State) : Result :=
  jump64K condGe dst imm off s

/-- `jge rD, rS, +n` (R184): taken where condGe holds. -/
def execJgeX (dst src : Reg) (off : BitVec 16) (s : State) : Result :=
  jump64X condGe dst src off s

/-- `jset rD, imm, +n` (R187): taken where condSet holds. -/
def execJsetK (dst : Reg) (imm : BitVec 32) (off : BitVec 16) (s : State) : Result :=
  jump64K condSet dst imm off s

/-- `jset rD, rS, +n` (R188): taken where condSet holds. -/
def execJsetX (dst src : Reg) (off : BitVec 16) (s : State) : Result :=
  jump64X condSet dst src off s

/-- `jne rD, imm, +n` (R191): taken where condNe holds. -/
def execJneK (dst : Reg) (imm : BitVec 32) (off : BitVec 16) (s : State) : Result :=
  jump64K condNe dst imm off s

/-- `jne rD, rS, +n` (R192): taken where condNe holds. -/
def execJneX (dst src : Reg) (off : BitVec 16) (s : State) : Result :=
  jump64X condNe dst src off s

/-- `jsgt rD, imm, +n` (R195): taken where condSgt holds. -/
def execJsgtK (dst : Reg) (imm : BitVec 32) (off : BitVec 16) (s : State) : Result :=
  jump64K condSgt dst imm off s

/-- `jsgt rD, rS, +n` (R196): taken where condSgt holds. -/
def execJsgtX (dst src : Reg) (off : BitVec 16) (s : State) : Result :=
  jump64X condSgt dst src off s

/-- `jsge rD, imm, +n` (R199): taken where condSge holds. -/
def execJsgeK (dst : Reg) (imm : BitVec 32) (off : BitVec 16) (s : State) : Result :=
  jump64K condSge dst imm off s

/-- `jsge rD, rS, +n` (R200): taken where condSge holds. -/
def execJsgeX (dst src : Reg) (off : BitVec 16) (s : State) : Result :=
  jump64X condSge dst src off s

/-- `jlt rD, imm, +n` (R203): taken where condLt holds. -/
def execJltK (dst : Reg) (imm : BitVec 32) (off : BitVec 16) (s : State) : Result :=
  jump64K condLt dst imm off s

/-- `jlt rD, rS, +n` (R204): taken where condLt holds. -/
def execJltX (dst src : Reg) (off : BitVec 16) (s : State) : Result :=
  jump64X condLt dst src off s

/-- `jle rD, imm, +n` (R207): taken where condLe holds. -/
def execJleK (dst : Reg) (imm : BitVec 32) (off : BitVec 16) (s : State) : Result :=
  jump64K condLe dst imm off s

/-- `jle rD, rS, +n` (R208): taken where condLe holds. -/
def execJleX (dst src : Reg) (off : BitVec 16) (s : State) : Result :=
  jump64X condLe dst src off s

/-- `jslt rD, imm, +n` (R211): taken where condSlt holds. -/
def execJsltK (dst : Reg) (imm : BitVec 32) (off : BitVec 16) (s : State) : Result :=
  jump64K condSlt dst imm off s

/-- `jslt rD, rS, +n` (R212): taken where condSlt holds. -/
def execJsltX (dst src : Reg) (off : BitVec 16) (s : State) : Result :=
  jump64X condSlt dst src off s

/-- `jsle rD, imm, +n` (R215): taken where condSle holds. -/
def execJsleK (dst : Reg) (imm : BitVec 32) (off : BitVec 16) (s : State) : Result :=
  jump64K condSle dst imm off s

/-- `jsle rD, rS, +n` (R216): taken where condSle holds. -/
def execJsleX (dst src : Reg) (off : BitVec 16) (s : State) : Result :=
  jump64X condSle dst src off s

end Sys2Proof.Machine
end

