-- ==== Sys2Proof/Machine/LoadStore.lean ====
section
/-! DEFINITION. The regular loads and stores (43_load_store.md). -/

namespace Sys2Proof.Machine

/-- `stxw [rD+off], rS` (R234): the low four bytes of src into memory. -/
def execStxw (dst src : Reg) (off : BitVec 16) (s : State) : Result :=
  storeReg .w dst src off s

/-- `stxh [rD+off], rS` (R235): the low two bytes of src into memory. -/
def execStxh (dst src : Reg) (off : BitVec 16) (s : State) : Result :=
  storeReg .h dst src off s

/-- `stxb [rD+off], rS` (R236): the low byte of src into memory. -/
def execStxb (dst src : Reg) (off : BitVec 16) (s : State) : Result :=
  storeReg .b dst src off s

/-- `stxdw [rD+off], rS` (R237): the eight bytes of src into memory. -/
def execStxdw (dst src : Reg) (off : BitVec 16) (s : State) : Result :=
  storeReg .dw dst src off s

/-- `stw [rD+off], imm` (R238): four bytes of the sign-extended imm into memory. -/
def execStw (dst : Reg) (off : BitVec 16) (imm : BitVec 32) (s : State) : Result :=
  storeImm .w dst off imm s

/-- `sth [rD+off], imm` (R239): two bytes of the sign-extended imm into memory. -/
def execSth (dst : Reg) (off : BitVec 16) (imm : BitVec 32) (s : State) : Result :=
  storeImm .h dst off imm s

/-- `stb [rD+off], imm` (R240): one byte of the sign-extended imm into memory. -/
def execStb (dst : Reg) (off : BitVec 16) (imm : BitVec 32) (s : State) : Result :=
  storeImm .b dst off imm s

/-- `stdw [rD+off], imm` (R241): eight bytes of the sign-extended imm into memory. -/
def execStdw (dst : Reg) (off : BitVec 16) (imm : BitVec 32) (s : State) : Result :=
  storeImm .dw dst off imm s

/-- `ldxw rD, [rS+off]` (R242): four bytes of memory into dst, zero-extended. -/
def execLdxw (dst : GReg) (src : Reg) (off : BitVec 16) (s : State) : Result :=
  loadReg .w dst src off s

/-- `ldxh rD, [rS+off]` (R243): two bytes of memory into dst, zero-extended. -/
def execLdxh (dst : GReg) (src : Reg) (off : BitVec 16) (s : State) : Result :=
  loadReg .h dst src off s

/-- `ldxb rD, [rS+off]` (R244): one byte of memory into dst, zero-extended. -/
def execLdxb (dst : GReg) (src : Reg) (off : BitVec 16) (s : State) : Result :=
  loadReg .b dst src off s

/-- `ldxdw rD, [rS+off]` (R245): eight bytes of memory into dst, zero-extended. -/
def execLdxdw (dst : GReg) (src : Reg) (off : BitVec 16) (s : State) : Result :=
  loadReg .dw dst src off s

end Sys2Proof.Machine
end

