-- ==== Sys2Proof/Machine/Step.lean ====
section
/-! DEFINITION. One step of the machine, and the host's loading of one instruction. -/

namespace Sys2Proof.Machine

/-- One step (60_exceptions.md rule R300). From an OUT other than `running` there is none (R306). A `pc` outside the
program is a fault (R28); a word the decoder refuses is a refusal (R302); else the instruction runs. -/
def step (s : State) : Host.Outcome State Fault Refusal :=
  match s.out with
  | .exited _ => .fault .runOver
  | .faulted _ => .fault .runOver
  | .running =>
    match fetch s with
    | none => raiseFault (.pcOutOfRange s.pc) s
    | some (w, second) =>
      match decode s.par.negReading w second with
      | .error k => .refused (.word k)
      | .ok i => exec i s

/-- The state with the instruction whose bits are `w` stored at the slot `pc` names and the slot after it, so that the
next step runs it: it stands for the host's supply of a program text (70_reset_and_hazards.md rule R330; log 4). OUT
becomes `running` and a negative `pc` becomes 0, both of which the fetch needs. -/
def State.withFetchWord (s : State) (nbits w : Nat) : State :=
  let bits := w % 2 ^ nbits
  let slot := s.pc.toNat
  { s with
    pc  := slot
    out := .running
    par := { s.par with
      program := setSlot (setSlot s.par.program slot (BitVec.ofNat 64 bits)) (slot + 1) (BitVec.ofNat 64 (bits / 2 ^ 64)) } }

end Sys2Proof.Machine
end

