-- ==== Sys2Proof/Machine/Launch.lean ====
section
/-! DEFINITION. The launch of a run (70_reset_and_hazards.md rules R330 to R333, 10_state.md rule R34): the start state
for any parameters. -/

namespace Sys2Proof.Machine

/-- What the host supplies (00_scope.md rule R7). `regions` is MEM without the stack; `arg1` to `arg5` are ARGS. -/
structure Launch where
  hostEndian  : Endian
  alignPolicy : AlignPolicy
  shiftPolicy : ShiftPolicy
  negReading  : NegReading
  program     : List Word
  regions     : List Region
  stackSize   : Nat
  fp          : Word
  arg1        : Option Word
  arg2        : Option Word
  arg3        : Option Word
  arg4        : Option Word
  arg5        : Option Word
  helpers     : List Helper
deriving DecidableEq, Repr

/-- The same launch with its program text given as bytes in `INSN_BYTE_ORDER` (R43). -/
def Launch.withProgramBytes (l : Launch) (order : Endian) (bs : List Byte) : Option Launch :=
  (programOfBytes order bs).map fun p => { l with program := p }

/-- The stack region `[FP - STACK_SIZE, FP)`: private, readable, writable, of unconstrained content (R56). -/
def Launch.stack (l : Launch) : Region where
  base     := l.fp - BitVec.ofNat 64 l.stackSize
  length   := l.stackSize
  readable := true
  writable := true
  shared   := false
  content  := none

/-- MEM: the stack and the other regions (R330). -/
def Launch.allRegions (l : Launch) : List Region := l.stack :: l.regions

/-- Two regions do not overlap: they have no byte in common (R55). A region of length 0, such as a stack with
STACK_SIZE 0, has no byte and so overlaps none, wherever its base lies (DESIGN CHOICE, log 19: R55 does not say). -/
def disjoint (r q : Region) : Bool :=
  decide (r.length = 0) || decide (q.length = 0) || decide (r.base.toNat + r.length ≤ q.base.toNat) ||
    decide (q.base.toNat + q.length ≤ r.base.toNat)

/-- No two regions of the list overlap (R55). -/
def pairwiseDisjoint : List Region → Bool
  | [] => true
  | r :: rs => rs.all (disjoint r) && pairwiseDisjoint rs

/-- A region does not pass the top of the address space, and its launch content has its length (R55). -/
def Region.fits (r : Region) : Bool :=
  decide (r.base.toNat + r.length ≤ 2 ^ 64) &&
    match r.content with
    | some bs => decide (bs.length = r.length)
    | none => true

/-- No two function descriptions have the same number: HELPERS is a map (R221). -/
def numbersDistinct : List Helper → Bool
  | [] => true
  | h :: hs => hs.all (fun g => decide (g.number ≠ h.number)) && numbersDistinct hs

/-- The conditions on the parameters (R7, R55, R56) and, of the host's duties of R333, (b) and what (c) and (e) say of
the form of regions and functions. Not checked: duty (a), that no reachable word is refused, which R302 leaves to the
model; that every function the program calls is described (e), and that the regions and arguments it needs are there
(c, d). Such a launch is valid, and its run meets the refusal or the fault (DESIGN CHOICE, log 18). -/
def Launch.valid (l : Launch) : Bool :=
  !l.program.isEmpty &&
  decide (l.fp.toNat % 8 = 0) &&
  decide (l.stackSize ≤ l.fp.toNat) &&
  l.allRegions.all Region.fits &&
  pairwiseDisjoint l.allRegions &&
  numbersDistinct l.helpers

/-- Writing the launch content of regions (R34); unconstrained content stays unlisted (log 6). -/
def launchMemory : Memory → List Region → Memory
  | m, [] => m
  | m, r :: rs =>
    match r.content with
    | some bs => launchMemory (Memory.setBytes m r.base.toNat bs) rs
    | none => launchMemory m rs

/-- The parameters a run keeps (R330 steps 1 to 3). -/
def Launch.params (l : Launch) : Params where
  hostEndian  := l.hostEndian
  alignPolicy := l.alignPolicy
  shiftPolicy := l.shiftPolicy
  negReading  := l.negReading
  program     := l.program
  regions     := l.allRegions
  helpers     := l.helpers

/-- The start state (R34, R330). -/
def State.launch (l : Launch) : State where
  regs    := ⟨none, l.arg1, l.arg2, l.arg3, l.arg4, l.arg5, none, none, none, none, l.fp⟩
  pc      := 0
  mem     := launchMemory [] l.allRegions
  out     := .running
  history := []
  par     := l.params
  draws   := 0

/-- The launch that `State.reset` follows, but for the registers that R34 gives no value (log 1). -/
def resetLaunch : Launch where
  hostEndian  := .little
  alignPolicy := .fault
  shiftPolicy := .unspecified
  negReading  := .literal
  program     := []
  regions     := []
  stackSize   := 512
  fp          := 0x10000
  arg1        := some 0
  arg2        := some 0
  arg3        := some 0
  arg4        := some 0
  arg5        := some 0
  helpers     := []

end Sys2Proof.Machine
end

