-- ==== Sys2Proof/Safety.lean ====
section
/-! DEFINITION. The terms that claims about the machine are stated in: the invariant every step keeps, what a safe
outcome is, what each instruction reads and writes, and one form of claim per group of instructions. The numbers here
are natural numbers and integers, computed independently of the bit-vector operations of the meanings. -/

namespace Sys2Proof.Machine

/-! ### The invariant -/

/-- The byte at an address lies in a region of `MEM` (20_memory.md rule R55). -/
def mapped (par : Params) (a : Nat) : Prop := ∃ r ∈ par.regions, r.base.toNat ≤ a ∧ a < r.base.toNat + r.length

/-- The `n` bytes at `addr` lie in the region, below the top of the address space (20_memory.md rules R46, R48). -/
def Inside (r : Region) (addr : Word) (n : Nat) : Prop :=
  addr.toNat + n ≤ 2 ^ 64 ∧ r.base.toNat ≤ addr.toNat ∧ addr.toNat + n ≤ r.base.toNat + r.length

/-- The bytes an event names lie in one shared region (20_memory.md rule R58 d). -/
def Event.inShared (par : Params) (e : Event) : Prop :=
  ∃ r ∈ par.regions, r.shared = true ∧
    match e with
    | .read _ a n _ => Inside r a n
    | .write _ a n _ => Inside r a n
    | .atomic _ a n _ _ => Inside r a n

/-- The invariant of the machine: data memory is in canonical form and lists only bytes of the address space that lie
in a region (R40, R48, R221), and the history records accesses to shared regions only (R58 d). -/
structure StateInv (s : State) : Prop where
  canonical : s.mem.wf = true
  inRegions : ∀ c ∈ s.mem, c.1 < 2 ^ 64 ∧ mapped s.par c.1
  history   : ∀ e ∈ s.history, e.inShared s.par

/-! ### Operands and results -/

/-- The run has not ended (60_exceptions.md rule R300). -/
def Running (s : State) : Prop := s.out = .running

/-- Register `r` holds the value `v` (10_state.md rule R24). -/
def Holds (s : State) (r : Reg) (v : Word) : Prop :=
  match r with
  | .gpr g => s.regs.get g = some v
  | .r10 => s.regs.r10 = v

/-- Register `g` holds no value (10_state.md rule R24). -/
def HoldsNone (s : State) (g : GReg) : Prop := s.regs.get g = none

/-- The state with the value `v` in register `g`, the program counter one slot on, and nothing else changed. -/
def State.wrote (s : State) (g : GReg) (v : Word) : State :=
  { s with regs := s.regs.set g (some v), pc := s.pc + 1 }

/-- The state with the program counter at `target` and nothing else changed. -/
def State.goto (s : State) (target : Int) : State := { s with pc := target }

/-- The slot a taken jump goes to (10_state.md rule R27). -/
def State.target (s : State) (off : BitVec 16) : Int := s.pc + 1 + off.toInt

/-- The state in which the run has ended with a fault and nothing else is changed (60_exceptions.md rule R303). -/
def State.withFault (s : State) (f : FaultInfo) : State := { s with out := .faulted f }

/-- A safe outcome: a next state that is no fault. -/
def SafeOutcome (r : Result) : Prop := ∃ t, r = .next t ∧ ∀ f, t.out ≠ .faulted f

/-! ### What each instruction reads and writes -/

/-- What an instruction is for, with the displacement of a jump. -/
inductive Kind where
  | arith
  | jump (off : BitVec 16)
  | conditional (off : BitVec 16)
  | call
  | exit
  | load
  | store
  | atomic
  | wide
  | legacy
deriving DecidableEq, Repr

/-- One row of the table of 10_state.md rule R25: the registers read, in the order of 60_exceptions.md rule R309, and
the register written. The argument registers a call reads are not listed: its function says which they are. -/
structure Profile where
  kind  : Kind
  reads : List Reg
  dest  : Option GReg
deriving DecidableEq, Repr

/-- The table of 10_state.md rule R25, instruction by instruction. -/
def profile (neg : NegReading) : Instr → Profile
  | .add32K dst _ => ⟨.arith, [.gpr dst], some dst⟩
  | .add32X dst src => ⟨.arith, [.gpr dst, src], some dst⟩
  | .add64K dst _ => ⟨.arith, [.gpr dst], some dst⟩
  | .add64X dst src => ⟨.arith, [.gpr dst, src], some dst⟩
  | .sub32K dst _ => ⟨.arith, [.gpr dst], some dst⟩
  | .sub32X dst src => ⟨.arith, [.gpr dst, src], some dst⟩
  | .sub64K dst _ => ⟨.arith, [.gpr dst], some dst⟩
  | .sub64X dst src => ⟨.arith, [.gpr dst, src], some dst⟩
  | .mul32K dst _ => ⟨.arith, [.gpr dst], some dst⟩
  | .mul32X dst src => ⟨.arith, [.gpr dst, src], some dst⟩
  | .mul64K dst _ => ⟨.arith, [.gpr dst], some dst⟩
  | .mul64X dst src => ⟨.arith, [.gpr dst, src], some dst⟩
  | .div32K dst _ => ⟨.arith, [.gpr dst], some dst⟩
  | .div32X dst src => ⟨.arith, [.gpr dst, src], some dst⟩
  | .div64K dst _ => ⟨.arith, [.gpr dst], some dst⟩
  | .div64X dst src => ⟨.arith, [.gpr dst, src], some dst⟩
  | .or32K dst _ => ⟨.arith, [.gpr dst], some dst⟩
  | .or32X dst src => ⟨.arith, [.gpr dst, src], some dst⟩
  | .or64K dst _ => ⟨.arith, [.gpr dst], some dst⟩
  | .or64X dst src => ⟨.arith, [.gpr dst, src], some dst⟩
  | .and32K dst _ => ⟨.arith, [.gpr dst], some dst⟩
  | .and32X dst src => ⟨.arith, [.gpr dst, src], some dst⟩
  | .and64K dst _ => ⟨.arith, [.gpr dst], some dst⟩
  | .and64X dst src => ⟨.arith, [.gpr dst, src], some dst⟩
  | .lsh32K dst _ => ⟨.arith, [.gpr dst], some dst⟩
  | .lsh32X dst src => ⟨.arith, [.gpr dst, src], some dst⟩
  | .lsh64K dst _ => ⟨.arith, [.gpr dst], some dst⟩
  | .lsh64X dst src => ⟨.arith, [.gpr dst, src], some dst⟩
  | .rsh32K dst _ => ⟨.arith, [.gpr dst], some dst⟩
  | .rsh32X dst src => ⟨.arith, [.gpr dst, src], some dst⟩
  | .rsh64K dst _ => ⟨.arith, [.gpr dst], some dst⟩
  | .rsh64X dst src => ⟨.arith, [.gpr dst, src], some dst⟩
  | .neg32K dst _ => ⟨.arith, if neg = .literal then [] else [.gpr dst], some dst⟩
  | .neg32X dst src => ⟨.arith, [src], some dst⟩
  | .neg64K dst _ => ⟨.arith, if neg = .literal then [] else [.gpr dst], some dst⟩
  | .neg64X dst src => ⟨.arith, [src], some dst⟩
  | .mod32K dst _ => ⟨.arith, [.gpr dst], some dst⟩
  | .mod32X dst src => ⟨.arith, [.gpr dst, src], some dst⟩
  | .mod64K dst _ => ⟨.arith, [.gpr dst], some dst⟩
  | .mod64X dst src => ⟨.arith, [.gpr dst, src], some dst⟩
  | .xor32K dst _ => ⟨.arith, [.gpr dst], some dst⟩
  | .xor32X dst src => ⟨.arith, [.gpr dst, src], some dst⟩
  | .xor64K dst _ => ⟨.arith, [.gpr dst], some dst⟩
  | .xor64X dst src => ⟨.arith, [.gpr dst, src], some dst⟩
  | .mov32K dst _ => ⟨.arith, [], some dst⟩
  | .mov32X dst src => ⟨.arith, [src], some dst⟩
  | .mov64K dst _ => ⟨.arith, [], some dst⟩
  | .mov64X dst src => ⟨.arith, [src], some dst⟩
  | .arsh32K dst _ => ⟨.arith, [.gpr dst], some dst⟩
  | .arsh32X dst src => ⟨.arith, [.gpr dst, src], some dst⟩
  | .arsh64K dst _ => ⟨.arith, [.gpr dst], some dst⟩
  | .arsh64X dst src => ⟨.arith, [.gpr dst, src], some dst⟩
  | .le16 dst => ⟨.arith, [.gpr dst], some dst⟩
  | .le32 dst => ⟨.arith, [.gpr dst], some dst⟩
  | .le64 dst => ⟨.arith, [.gpr dst], some dst⟩
  | .be16 dst => ⟨.arith, [.gpr dst], some dst⟩
  | .be32 dst => ⟨.arith, [.gpr dst], some dst⟩
  | .be64 dst => ⟨.arith, [.gpr dst], some dst⟩
  | .ja off => ⟨.jump off, [], none⟩
  | .jeqK dst _ off => ⟨.conditional off, [dst], none⟩
  | .jeqX dst src off => ⟨.conditional off, [dst, src], none⟩
  | .jeq32K dst _ off => ⟨.conditional off, [dst], none⟩
  | .jeq32X dst src off => ⟨.conditional off, [dst, src], none⟩
  | .jgtK dst _ off => ⟨.conditional off, [dst], none⟩
  | .jgtX dst src off => ⟨.conditional off, [dst, src], none⟩
  | .jgt32K dst _ off => ⟨.conditional off, [dst], none⟩
  | .jgt32X dst src off => ⟨.conditional off, [dst, src], none⟩
  | .jgeK dst _ off => ⟨.conditional off, [dst], none⟩
  | .jgeX dst src off => ⟨.conditional off, [dst, src], none⟩
  | .jge32K dst _ off => ⟨.conditional off, [dst], none⟩
  | .jge32X dst src off => ⟨.conditional off, [dst, src], none⟩
  | .jsetK dst _ off => ⟨.conditional off, [dst], none⟩
  | .jsetX dst src off => ⟨.conditional off, [dst, src], none⟩
  | .jset32K dst _ off => ⟨.conditional off, [dst], none⟩
  | .jset32X dst src off => ⟨.conditional off, [dst, src], none⟩
  | .jneK dst _ off => ⟨.conditional off, [dst], none⟩
  | .jneX dst src off => ⟨.conditional off, [dst, src], none⟩
  | .jne32K dst _ off => ⟨.conditional off, [dst], none⟩
  | .jne32X dst src off => ⟨.conditional off, [dst, src], none⟩
  | .jsgtK dst _ off => ⟨.conditional off, [dst], none⟩
  | .jsgtX dst src off => ⟨.conditional off, [dst, src], none⟩
  | .jsgt32K dst _ off => ⟨.conditional off, [dst], none⟩
  | .jsgt32X dst src off => ⟨.conditional off, [dst, src], none⟩
  | .jsgeK dst _ off => ⟨.conditional off, [dst], none⟩
  | .jsgeX dst src off => ⟨.conditional off, [dst, src], none⟩
  | .jsge32K dst _ off => ⟨.conditional off, [dst], none⟩
  | .jsge32X dst src off => ⟨.conditional off, [dst, src], none⟩
  | .jltK dst _ off => ⟨.conditional off, [dst], none⟩
  | .jltX dst src off => ⟨.conditional off, [dst, src], none⟩
  | .jlt32K dst _ off => ⟨.conditional off, [dst], none⟩
  | .jlt32X dst src off => ⟨.conditional off, [dst, src], none⟩
  | .jleK dst _ off => ⟨.conditional off, [dst], none⟩
  | .jleX dst src off => ⟨.conditional off, [dst, src], none⟩
  | .jle32K dst _ off => ⟨.conditional off, [dst], none⟩
  | .jle32X dst src off => ⟨.conditional off, [dst, src], none⟩
  | .jsltK dst _ off => ⟨.conditional off, [dst], none⟩
  | .jsltX dst src off => ⟨.conditional off, [dst, src], none⟩
  | .jslt32K dst _ off => ⟨.conditional off, [dst], none⟩
  | .jslt32X dst src off => ⟨.conditional off, [dst, src], none⟩
  | .jsleK dst _ off => ⟨.conditional off, [dst], none⟩
  | .jsleX dst src off => ⟨.conditional off, [dst, src], none⟩
  | .jsle32K dst _ off => ⟨.conditional off, [dst], none⟩
  | .jsle32X dst src off => ⟨.conditional off, [dst, src], none⟩
  | .call _ => ⟨.call, [], some .r0⟩
  | .exit => ⟨.exit, [.gpr .r0], none⟩
  | .stxw dst src _ => ⟨.store, [dst, src], none⟩
  | .stxh dst src _ => ⟨.store, [dst, src], none⟩
  | .stxb dst src _ => ⟨.store, [dst, src], none⟩
  | .stxdw dst src _ => ⟨.store, [dst, src], none⟩
  | .stw dst _ _ => ⟨.store, [dst], none⟩
  | .sth dst _ _ => ⟨.store, [dst], none⟩
  | .stb dst _ _ => ⟨.store, [dst], none⟩
  | .stdw dst _ _ => ⟨.store, [dst], none⟩
  | .ldxw dst src _ => ⟨.load, [src], some dst⟩
  | .ldxh dst src _ => ⟨.load, [src], some dst⟩
  | .ldxb dst src _ => ⟨.load, [src], some dst⟩
  | .ldxdw dst src _ => ⟨.load, [src], some dst⟩
  | .atomicAdd32 dst src _ => ⟨.atomic, [dst, src], none⟩
  | .atomicAdd64 dst src _ => ⟨.atomic, [dst, src], none⟩
  | .atomicOr32 dst src _ => ⟨.atomic, [dst, src], none⟩
  | .atomicOr64 dst src _ => ⟨.atomic, [dst, src], none⟩
  | .atomicAnd32 dst src _ => ⟨.atomic, [dst, src], none⟩
  | .atomicAnd64 dst src _ => ⟨.atomic, [dst, src], none⟩
  | .atomicXor32 dst src _ => ⟨.atomic, [dst, src], none⟩
  | .atomicXor64 dst src _ => ⟨.atomic, [dst, src], none⟩
  | .atomicFetchAdd32 dst src _ => ⟨.atomic, [dst, .gpr src], some src⟩
  | .atomicFetchAdd64 dst src _ => ⟨.atomic, [dst, .gpr src], some src⟩
  | .atomicFetchOr32 dst src _ => ⟨.atomic, [dst, .gpr src], some src⟩
  | .atomicFetchOr64 dst src _ => ⟨.atomic, [dst, .gpr src], some src⟩
  | .atomicFetchAnd32 dst src _ => ⟨.atomic, [dst, .gpr src], some src⟩
  | .atomicFetchAnd64 dst src _ => ⟨.atomic, [dst, .gpr src], some src⟩
  | .atomicFetchXor32 dst src _ => ⟨.atomic, [dst, .gpr src], some src⟩
  | .atomicFetchXor64 dst src _ => ⟨.atomic, [dst, .gpr src], some src⟩
  | .atomicXchg32 dst src _ => ⟨.atomic, [dst, .gpr src], some src⟩
  | .atomicXchg64 dst src _ => ⟨.atomic, [dst, .gpr src], some src⟩
  | .atomicCmpxchg32 dst src _ => ⟨.atomic, [dst, src, .gpr .r0], some .r0⟩
  | .atomicCmpxchg64 dst src _ => ⟨.atomic, [dst, src, .gpr .r0], some .r0⟩
  | .lddw dst _ => ⟨.wide, [], some dst⟩
  | .ldabsw _ => ⟨.legacy, [], none⟩
  | .ldabsh _ => ⟨.legacy, [], none⟩
  | .ldabsb _ => ⟨.legacy, [], none⟩
  | .ldabsdw _ => ⟨.legacy, [], none⟩
  | .ldindw _ => ⟨.legacy, [], none⟩
  | .ldindh _ => ⟨.legacy, [], none⟩
  | .ldindb _ => ⟨.legacy, [], none⟩
  | .ldinddw _ => ⟨.legacy, [], none⟩

/-! ### Opcodes and formats -/

/-- The 124 opcode values that spell an instruction, the 8 legacy ones among them (30_encoding.md rule R80). -/
def spelledOpcodes : List Nat :=
  [0x04, 0x05, 0x07, 0x0c, 0x0f, 0x14, 0x15, 0x16, 0x17, 0x18, 0x1c, 0x1d, 0x1e, 0x1f, 0x20, 0x24] ++
  [0x25, 0x26, 0x27, 0x28, 0x2c, 0x2d, 0x2e, 0x2f, 0x30, 0x34, 0x35, 0x36, 0x37, 0x38, 0x3c, 0x3d] ++
  [0x3e, 0x3f, 0x40, 0x44, 0x45, 0x46, 0x47, 0x48, 0x4c, 0x4d, 0x4e, 0x4f, 0x50, 0x54, 0x55, 0x56] ++
  [0x57, 0x58, 0x5c, 0x5d, 0x5e, 0x5f, 0x61, 0x62, 0x63, 0x64, 0x65, 0x66, 0x67, 0x69, 0x6a, 0x6b] ++
  [0x6c, 0x6d, 0x6e, 0x6f, 0x71, 0x72, 0x73, 0x74, 0x75, 0x76, 0x77, 0x79, 0x7a, 0x7b, 0x7c, 0x7d] ++
  [0x7e, 0x7f, 0x84, 0x85, 0x87, 0x8c, 0x8f, 0x94, 0x95, 0x97, 0x9c, 0x9f, 0xa4, 0xa5, 0xa6, 0xa7] ++
  [0xac, 0xad, 0xae, 0xaf, 0xb4, 0xb5, 0xb6, 0xb7, 0xbc, 0xbd, 0xbe, 0xbf, 0xc3, 0xc4, 0xc5, 0xc6] ++
  [0xc7, 0xcc, 0xcd, 0xce, 0xcf, 0xd4, 0xd5, 0xd6, 0xdb, 0xdc, 0xdd, 0xde]

/-- The opcodes of the legacy packet loads (45_imm64_legacy.md rules R282, R283). -/
def legacyOpcodes : List Nat := [0x20, 0x28, 0x30, 0x38, 0x40, 0x48, 0x50, 0x58]

/-- The bits that the format of an opcode requires to be zero, the opcode byte left out (30_encoding.md rule R79). An
imm that selects a byte swap width or an atomic operation is not one of them. -/
def unusedMask (opcode : Nat) : Word :=
  match opcode % 8 with
  | 0 => if opcode = 0x18 then 0xFFFFF000 else 0
  | 1 => 0xFFFFFFFF00000000
  | 2 => 0xF000
  | 3 => if opcode = 0xc3 ∨ opcode = 0xdb then 0 else 0xFFFFFFFF00000000
  | 5 =>
    if opcode = 0x05 then 0xFFFFFFFF0000FF00
    else if opcode = 0x85 then 0xFFFFFF00
    else if opcode = 0x95 then 0xFFFFFFFFFFFFFF00
    else if opcode / 8 % 2 = 0 then 0xF000
    else 0xFFFFFFFF00000000
  | 6 => if opcode / 8 % 2 = 0 then 0xF000 else 0xFFFFFFFF00000000
  | _ =>
    if opcode = 0xd4 ∨ opcode = 0xdc then 0xFFFFF000
    else if opcode / 8 % 2 = 0 then 0xFFFFF000
    else 0xFFFFFFFFFFFF0000

/-- The opcodes whose instruction writes dst_reg: classes 0 (lddw), 1, 4 and 7 (30_encoding.md rules R79, R86). -/
def writesDst (opcode : Nat) : Bool := decide (opcode % 8 ∈ [0, 1, 4, 7])

/-- The values of imm that select an atomic operation (44_atomic.md rule R250). -/
def atomicImms : List Nat := [0x00, 0x40, 0x50, 0xa0, 0x01, 0x41, 0x51, 0xa1, 0xe1, 0xf1]

/-- Those whose operation writes src_reg (30_encoding.md rule R86). -/
def fetchImms : List Nat := [0x01, 0x41, 0x51, 0xa1, 0xe1]

/-- The eight bytes of a word with these fields, from byte 0, for `INSN_BYTE_ORDER = little` (20_memory.md rule R43). -/
def bytesOfFields (f : Fields) : List Byte :=
  [f.opcode, f.src ++ f.dst, f.off.extractLsb' 0 8, f.off.extractLsb' 8 8,
   f.imm.extractLsb' 0 8, f.imm.extractLsb' 8 8, f.imm.extractLsb' 16 8, f.imm.extractLsb' 24 8]

/-! ### Claims about arithmetic: `F N D S` is the N-bit result for the operands D and S (40_alu.md rules R101, R102) -/

/-- The 32-bit BPF_K form. -/
def ArithK32 (c : GReg → BitVec 32 → Instr) (F : Nat → Nat → Nat → Nat) : Prop :=
  ∀ (s : State) (dst : GReg) (imm : BitVec 32) (d : Word), Holds s (.gpr dst) d →
    exec (c dst imm) s = .next (s.wrote dst (BitVec.ofNat 64 (F 32 (d.toNat % 2 ^ 32) imm.toNat)))

/-- The 32-bit BPF_X form. -/
def ArithX32 (c : GReg → Reg → Instr) (F : Nat → Nat → Nat → Nat) : Prop :=
  ∀ (s : State) (dst : GReg) (src : Reg) (d v : Word), Holds s (.gpr dst) d → Holds s src v →
    exec (c dst src) s = .next (s.wrote dst (BitVec.ofNat 64 (F 32 (d.toNat % 2 ^ 32) (v.toNat % 2 ^ 32))))

/-- The 64-bit BPF_K form. -/
def ArithK64 (c : GReg → BitVec 32 → Instr) (F : Nat → Nat → Nat → Nat) : Prop :=
  ∀ (s : State) (dst : GReg) (imm : BitVec 32) (d : Word), Holds s (.gpr dst) d →
    exec (c dst imm) s = .next (s.wrote dst (BitVec.ofNat 64 (F 64 d.toNat (imm.signExtend 64).toNat)))

/-- The 64-bit BPF_X form. -/
def ArithX64 (c : GReg → Reg → Instr) (F : Nat → Nat → Nat → Nat) : Prop :=
  ∀ (s : State) (dst : GReg) (src : Reg) (d v : Word), Holds s (.gpr dst) d → Holds s src v →
    exec (c dst src) s = .next (s.wrote dst (BitVec.ofNat 64 (F 64 d.toNat v.toNat)))

/-- All four forms of one operation. -/
def ArithForms (k32 : GReg → BitVec 32 → Instr) (x32 : GReg → Reg → Instr) (k64 : GReg → BitVec 32 → Instr)
    (x64 : GReg → Reg → Instr) (F : Nat → Nat → Nat → Nat) : Prop :=
  ArithK32 k32 F ∧ ArithX32 x32 F ∧ ArithK64 k64 F ∧ ArithX64 x64 F

/-- The outcome of a shift by `k` of an operand of `n` bits into dst (40_alu.md rule R103): the shift below the width;
from the width on a draw, or under `SHIFT_POLICY = mask` the shift by `k mod n`. -/
def ShiftOutcome (n : Nat) (F : Nat → Nat → Nat → Nat) (i : Instr) (s : State) (dst : GReg) (d k : Nat) : Prop :=
  (k < n → exec i s = .next (s.wrote dst (BitVec.ofNat 64 (F n d k)))) ∧
  (n ≤ k → s.par.shiftPolicy = .mask → exec i s = .next (s.wrote dst (BitVec.ofNat 64 (F n d (k % n))))) ∧
  (n ≤ k → s.par.shiftPolicy = .unspecified →
    exec i s = .next { s.wrote dst ((Config.draw n s.draws).setWidth 64) with draws := s.draws + 1 })

/-- All four forms of one shift, on operands as for `ArithForms`. -/
def ShiftForms (k32 : GReg → BitVec 32 → Instr) (x32 : GReg → Reg → Instr) (k64 : GReg → BitVec 32 → Instr)
    (x64 : GReg → Reg → Instr) (F : Nat → Nat → Nat → Nat) : Prop :=
  (∀ (s : State) (dst : GReg) (imm : BitVec 32) (d : Word), Holds s (.gpr dst) d →
    ShiftOutcome 32 F (k32 dst imm) s dst (d.toNat % 2 ^ 32) imm.toNat ∧
    ShiftOutcome 64 F (k64 dst imm) s dst d.toNat (imm.signExtend 64).toNat) ∧
  (∀ (s : State) (dst : GReg) (src : Reg) (d v : Word), Holds s (.gpr dst) d → Holds s src v →
    ShiftOutcome 32 F (x32 dst src) s dst (d.toNat % 2 ^ 32) (v.toNat % 2 ^ 32) ∧
    ShiftOutcome 64 F (x64 dst src) s dst d.toNat v.toNat)

/-- The bytes of a value, least significant first. -/
def bytesOf : Nat → Nat → List Nat
  | 0, _ => []
  | n + 1, v => v % 256 :: bytesOf n (v / 256)

/-- The number whose base-256 digits, most significant first, are the list. -/
def bigValue (ds : List Nat) : Nat := ds.foldl (fun acc b => 256 * acc + b) 0

/-- `bswap` of an `n`-byte value (00_scope.md rule R11): its bytes in the other order. -/
def bswap (n v : Nat) : Nat := bigValue (bytesOf n v)

/-- A byte swap of `n` bytes to or from the order `target` (41_byteswap.md rules R161, R162). -/
def SwapForm (c : GReg → Instr) (target : Endian) (n : Nat) : Prop :=
  ∀ (s : State) (dst : GReg) (d : Word), Holds s (.gpr dst) d →
    (s.par.hostEndian = target → exec (c dst) s = .next (s.wrote dst (BitVec.ofNat 64 (d.toNat % 256 ^ n)))) ∧
    (s.par.hostEndian ≠ target → exec (c dst) s = .next (s.wrote dst (BitVec.ofNat 64 (bswap n d.toNat))))

/-! ### Claims about conditional jumps -/

/-- A jump goes to the target where `P` holds, and to the next slot where it does not (42_jump.md rule R173). -/
def Branches (i : Instr) (s : State) (off : BitVec 16) (P : Prop) : Prop :=
  (P → exec i s = .next (s.goto (s.target off))) ∧ (¬P → exec i s = .next (s.goto (s.pc + 1)))

/-- All four forms of one conditional jump: 64-bit operands are registers or the sign-extended imm, 32-bit operands
are low halves of registers or imm (42_jump.md rule R170). -/
def JumpForms (k64 : Reg → BitVec 32 → BitVec 16 → Instr) (x64 : Reg → Reg → BitVec 16 → Instr)
    (k32 : Reg → BitVec 32 → BitVec 16 → Instr) (x32 : Reg → Reg → BitVec 16 → Instr)
    (P : (n : Nat) → BitVec n → BitVec n → Prop) : Prop :=
  (∀ (s : State) (dst : Reg) (imm : BitVec 32) (off : BitVec 16) (d : Word), Holds s dst d →
    Branches (k64 dst imm off) s off (P 64 d (imm.signExtend 64)) ∧
    Branches (k32 dst imm off) s off (P 32 (d.setWidth 32) imm)) ∧
  (∀ (s : State) (dst src : Reg) (off : BitVec 16) (d v : Word), Holds s dst d → Holds s src v →
    Branches (x64 dst src off) s off (P 64 d v) ∧
    Branches (x32 dst src off) s off (P 32 (d.setWidth 32) (v.setWidth 32)))

/-! ### Claims about memory -/

/-- No two regions have a byte in common (20_memory.md rule R55); one of length 0 has none (log 19). -/
def Separate (par : Params) : Prop :=
  par.regions.Pairwise fun r q => r.length = 0 ∨ q.length = 0 ∨
    r.base.toNat + r.length ≤ q.base.toNat ∨ q.base.toNat + q.length ≤ r.base.toNat

/-- The region grants the kind of access (20_memory.md rules R48, R52). -/
def Granting (r : Region) : AccessKind → Prop
  | .read => r.readable = true
  | .write => r.writable = true
  | .atomic => r.readable = true ∧ r.writable = true

/-- The address passes the alignment check of the access kind (20_memory.md rules R47, R52). -/
def Aligned (par : Params) (kind : AccessKind) (addr : Word) (n : Nat) : Prop :=
  addr.toNat % n = 0 ∨ (par.alignPolicy = .allow ∧ kind ≠ .atomic)

/-- The access to the `n` bytes at `addr` is to the region `r`, which grants it. -/
structure Access (par : Params) (kind : AccessKind) (r : Region) (addr : Word) (n : Nat) : Prop where
  separate : Separate par
  region   : r ∈ par.regions
  inside   : Inside r addr n
  granted  : Granting r kind
  aligned  : Aligned par kind addr n

/-- The fault an access ends with: the first check that fails, in the order wrap, alignment, region
(20_memory.md rules R46 to R49). -/
def AccessFault (par : Params) (kind : AccessKind) (addr : Word) (n : Nat) (f : FaultInfo) : Prop :=
  (2 ^ 64 < addr.toNat + n ∧ f = .memAccess addr n kind) ∨
  (addr.toNat + n ≤ 2 ^ 64 ∧ ¬Aligned par kind addr n ∧ f = .misaligned addr n kind) ∨
  (addr.toNat + n ≤ 2 ^ 64 ∧ Aligned par kind addr n ∧ (∀ r ∈ par.regions, Inside r addr n → ¬Granting r kind) ∧
    f = .memAccess addr n kind)

/-- The little endian value of bytes listed from the lowest address. -/
def littleValue : List Byte → Nat
  | [] => 0
  | b :: bs => b.toNat + 256 * littleValue bs

/-- The number that bytes from the lowest address stand for in a byte order (20_memory.md rule R42). -/
def valueOfBytes (e : Endian) (bs : List Byte) : Nat :=
  match e with
  | .little => littleValue bs
  | .big => littleValue bs.reverse

/-- The number an access reads (20_memory.md rule R44): drawn bytes in a shared region, the bytes of DATA in a
private one, in host byte order. -/
def State.accessValue (s : State) (r : Region) (addr : Word) (n : Nat) : Nat :=
  valueOfBytes s.par.hostEndian
    ((List.range n).map fun k => if r.shared then Config.draw 8 (s.draws + k) else s.byteAt (addr.toNat + k))

/-- The model's count of draws after an access that reads `n` bytes of the region. -/
def State.drawsAfter (s : State) (r : Region) (n : Nat) : Nat := if r.shared then s.draws + n else s.draws

/-- The history after an access to the region (20_memory.md rule R58 d). -/
def State.historyWith (s : State) (r : Region) (e : Event) : List Event :=
  if r.shared then s.history ++ [e] else s.history

/-- The `n` bytes at `addr` have become those of the number `v` in host byte order, and every other byte is as
before (20_memory.md rule R45). -/
def StoredAt (s t : State) (addr : Word) (n v : Nat) : Prop :=
  (∀ k, k < n → t.byteAt (addr.toNat + k) =
    BitVec.ofNat 8 (v / 256 ^ (if s.par.hostEndian = .little then k else n - 1 - k))) ∧
  ∀ a, a < addr.toNat ∨ addr.toNat + n ≤ a → t.byteAt a = s.byteAt a

/-- The load of a size (43_load_store.md rules R242 to R245). -/
def loadOf : Size → GReg → Reg → BitVec 16 → Instr
  | .w => .ldxw
  | .h => .ldxh
  | .b => .ldxb
  | .dw => .ldxdw

/-- The store of a register of a size (43_load_store.md rules R234 to R237). -/
def storeRegOf : Size → Reg → Reg → BitVec 16 → Instr
  | .w => .stxw
  | .h => .stxh
  | .b => .stxb
  | .dw => .stxdw

/-- The store of an immediate of a size (43_load_store.md rules R238 to R241). -/
def storeImmOf : Size → Reg → BitVec 16 → BitVec 32 → Instr
  | .w => .stw
  | .h => .sth
  | .b => .stb
  | .dw => .stdw

/-! ### Claims about atomic operations -/

/-- The two sizes of an atomic operation (44_atomic.md rule R250). -/
inductive AtomicSize where
  | w
  | dw
deriving DecidableEq, Repr

/-- The number of bytes. -/
def AtomicSize.bytes : AtomicSize → Nat
  | .w => 4
  | .dw => 8

/-- The operations that have a simple and a fetching form (44_atomic.md rule R250). -/
inductive RmwOp where
  | add
  | or
  | and
  | xor
deriving DecidableEq, Repr

/-- The new value of the memory operand of `n` bytes, from the old value and the register operand
(44_atomic.md rule R251). -/
def RmwOp.apply : RmwOp → Nat → Nat → Nat → Nat
  | .add, n, old, v => (old + v) % 256 ^ n
  | .or, n, old, v => old ||| v % 256 ^ n
  | .and, n, old, v => old &&& v % 256 ^ n
  | .xor, n, old, v => old ^^^ v % 256 ^ n

/-- The simple form of an operation (44_atomic.md rules R254 to R261). -/
def simpleOf : AtomicSize → RmwOp → Reg → Reg → BitVec 16 → Instr
  | .w, .add => .atomicAdd32
  | .w, .or => .atomicOr32
  | .w, .and => .atomicAnd32
  | .w, .xor => .atomicXor32
  | .dw, .add => .atomicAdd64
  | .dw, .or => .atomicOr64
  | .dw, .and => .atomicAnd64
  | .dw, .xor => .atomicXor64

/-- The fetching form of an operation (44_atomic.md rules R262 to R269). -/
def fetchOf : AtomicSize → RmwOp → Reg → GReg → BitVec 16 → Instr
  | .w, .add => .atomicFetchAdd32
  | .w, .or => .atomicFetchOr32
  | .w, .and => .atomicFetchAnd32
  | .w, .xor => .atomicFetchXor32
  | .dw, .add => .atomicFetchAdd64
  | .dw, .or => .atomicFetchOr64
  | .dw, .and => .atomicFetchAnd64
  | .dw, .xor => .atomicFetchXor64

/-- The exchange of a size (44_atomic.md rules R270, R271). -/
def exchangeOf : AtomicSize → Reg → GReg → BitVec 16 → Instr
  | .w => .atomicXchg32
  | .dw => .atomicXchg64

/-- The compare and exchange of a size (44_atomic.md rules R272, R273). -/
def compareExchangeOf : AtomicSize → Reg → Reg → BitVec 16 → Instr
  | .w => .atomicCmpxchg32
  | .dw => .atomicCmpxchg64

/-- The state after an atomic operation on `n` bytes at `addr` of the region, with the registers `rf`: the memory of
`t`, which the claim describes apart, and nothing else changed but the program counter, the count of draws and, for a
shared region, the history. -/
def State.afterAtomic (s t : State) (r : Region) (addr : Word) (n old : Nat) (new : Option Nat) (rf : RegFile) : State :=
  { s with
    regs    := rf
    pc      := s.pc + 1
    mem     := t.mem
    draws   := s.drawsAfter r n
    history := s.historyWith r (.atomic .thisRun addr n (BitVec.ofNat 64 old) (new.map (BitVec.ofNat 64))) }

end Sys2Proof.Machine
end

