-- ==== Sys2Proof/Certificates/Slice0/Obligations.lean ====
section
/-! DEFINITION. The statements for the provers. Each docstring names the rules of spec/ it formalises; the terms are
those of Sys2Proof/Safety.lean. -/

open Sys2Proof Sys2Proof.Machine

/-! ### Encoding -/

/-- Decoding the words of a well-formed instruction, whatever words follow, gives the instruction back, with every
operand at every value (R70, R72, R79, R80, R81). -/
def Obligations.DecodeOfEncode : Prop :=
  ∀ (neg : NegReading) (i : Instr) (rest : List Word), i.wellFormed neg = true →
    decodeWords neg (encode i ++ rest) = .ok i

/-- A word, or for a wide instruction a pair of words, has one meaning: an instruction the decoder gives is
well-formed and encodes to the word or words it was read from (R70, R79, R80, R82). -/
def Obligations.EncodeOfDecode : Prop :=
  ∀ (neg : NegReading) (w : Word) (second : Option Word) (i : Instr), decode neg w second = .ok i →
    i.wellFormed neg = true ∧ (encode i = [w] ∨ ∃ v, second = some v ∧ encode i = [w, v])

/-- The fields of a word, as bit positions and as one concatenation (R70). -/
def Obligations.WordFields : Prop :=
  ∀ w : Word,
    (Fields.ofWord w).imm.toNat = w.toNat / 2 ^ 32 ∧
    (Fields.ofWord w).off.toNat = w.toNat / 2 ^ 16 % 2 ^ 16 ∧
    (Fields.ofWord w).src.toNat = w.toNat / 2 ^ 12 % 2 ^ 4 ∧
    (Fields.ofWord w).dst.toNat = w.toNat / 2 ^ 8 % 2 ^ 4 ∧
    (Fields.ofWord w).opcode.toNat = w.toNat % 2 ^ 8 ∧
    (Fields.ofWord w).toWord = w

/-- A few words of the spec's examples decode to the instructions they stand for (R108, R163, R172, R175, R224, R225,
R234, R238, R262, R280). -/
def Obligations.SpecWordsDecode : Prop :=
  decode .literal 0xffffffff00000104 none = .ok (.add32K .r1 (-1)) ∧
  decode .literal 0x00000010000001d4 none = .ok (.le16 .r1) ∧
  decode .literal 0x00000000ffff0005 none = .ok (.ja (-1)) ∧
  decode .literal 0xffffffff00020115 none = .ok (.jeqK (.gpr .r1) (-1) 2) ∧
  decode .literal 0x0000000700000085 none = .ok (.call 7) ∧
  decode .literal 0x0000000000000095 none = .ok .exit ∧
  decode .literal 0x00000000fff81a63 none = .ok (.stxw .r10 (.gpr .r1) (-8)) ∧
  decode .literal 0xfffffffefff80a62 none = .ok (.stw .r10 (-8) (-2)) ∧
  decode .literal 0x00000001000021c3 none = .ok (.atomicFetchAdd32 (.gpr .r1) .r2 0) ∧
  decode .literal 0x5566778800000118 (some 0x1122334400000000) = .ok (.lddw .r1 0x1122334455667788)

/-- An opcode that spells nothing is refused with `IllegalOpcode`, whatever the rest of the word; there are 132 such
opcode values, 0x00 among them (R84). -/
def Obligations.IllegalOpcodeRefused : Prop :=
  (∀ (neg : NegReading) (w : Word) (second : Option Word), w.toNat % 256 ∉ spelledOpcodes →
    decode neg w second = .error .illegalOpcode) ∧
  ((List.range 256).filter (fun o => decide (o ∉ spelledOpcodes))).length = 132 ∧ 0 ∉ spelledOpcodes

/-- A word whose opcode spells an instruction and that has a one bit where the format requires zero is refused with
`NonzeroUnusedField`; a non-zero src_reg under opcode 0x18 is refused as R88 says (R82). -/
def Obligations.UnusedFieldRefused : Prop :=
  ∀ (w : Word) (second : Option Word), w.toNat % 256 ∈ spelledOpcodes → w &&& unusedMask (w.toNat % 256) ≠ 0 →
    (w.toNat % 256 = 0x18 → w.toNat / 2 ^ 12 % 16 = 0) → decode .literal w second = .error .nonzeroUnusedField

/-- A register field that the format uses and that holds 11 to 15 is refused with `BadRegister` (R83; the fields the
format does not use are zero here, R82). -/
def Obligations.BadRegisterRefused : Prop :=
  ∀ (w : Word) (second : Option Word), w.toNat % 256 ∈ spelledOpcodes → w.toNat % 256 ∉ legacyOpcodes →
    w &&& unusedMask (w.toNat % 256) = 0 → (10 < w.toNat / 2 ^ 8 % 16 ∨ 10 < w.toNat / 2 ^ 12 % 16) →
    decode .literal w second = .error .badRegister

/-- A word whose format writes a register and whose field for that register holds 10 is refused with `WriteToR10`:
dst_reg of arithmetic, byte swaps, loads and lddw, src_reg of a fetching atomic operation (R86). -/
def Obligations.WriteToR10Refused : Prop :=
  ∀ (w : Word) (second : Option Word), w.toNat % 256 ∈ spelledOpcodes → w.toNat % 256 ∉ legacyOpcodes →
    w &&& unusedMask (w.toNat % 256) = 0 → w.toNat / 2 ^ 8 % 16 ≤ 10 → w.toNat / 2 ^ 12 % 16 ≤ 10 →
    ((writesDst (w.toNat % 256) = true ∧ w.toNat / 2 ^ 8 % 16 = 10) ∨
      ((w.toNat % 256 = 0xc3 ∨ w.toNat % 256 = 0xdb) ∧ w.toNat / 2 ^ 32 ∈ fetchImms ∧ w.toNat / 2 ^ 12 % 16 = 10)) →
    decode .literal w second = .error .writeToR10

/-- An imm that selects no byte swap width or no atomic operation is refused, under either reading of BPF_NEG (R160,
R250, R81 step 4). That the kind is `BadAtomicOp` also for an imm that has the bit of BPF_FETCH, selects nothing, and
stands beside src_reg 10, is the model's choice (log 11): R86 by its letter has `WriteToR10` there, and R309 allows
either. -/
def Obligations.BadSelectorRefused : Prop :=
  (∀ (neg : NegReading) (w : Word) (second : Option Word), (w.toNat % 256 = 0xd4 ∨ w.toNat % 256 = 0xdc) →
    w &&& unusedMask (w.toNat % 256) = 0 → w.toNat / 2 ^ 8 % 16 < 10 → w.toNat / 2 ^ 32 ∉ [16, 32, 64] →
    decode neg w second = .error .badSwapWidth) ∧
  (∀ (neg : NegReading) (w : Word) (second : Option Word), (w.toNat % 256 = 0xc3 ∨ w.toNat % 256 = 0xdb) →
    w.toNat / 2 ^ 8 % 16 ≤ 10 → w.toNat / 2 ^ 12 % 16 ≤ 10 → w.toNat / 2 ^ 32 ∉ atomicImms →
    decode neg w second = .error .badAtomicOp)

/-- The validity of a wide instruction: its src_reg, the slot after it, and the low half of the word there (R88). The
unused and the written field of the first word are in order here (R82, R86). -/
def Obligations.WideInstructionChecks : Prop :=
  (∀ (neg : NegReading) (w : Word) (second : Option Word), w.toNat % 256 = 0x18 → w.toNat / 2 ^ 12 % 16 ≠ 0 →
    decode neg w second = .error .unsupportedImm64Kind) ∧
  (∀ (neg : NegReading) (w : Word), w.toNat % 256 = 0x18 → w &&& 0xFFFFF000 = 0 → w.toNat / 2 ^ 8 % 16 < 10 →
    decode neg w none = .error .truncatedWideInstruction) ∧
  (∀ (neg : NegReading) (w v : Word), w.toNat % 256 = 0x18 → w &&& 0xFFFFF000 = 0 → w.toNat / 2 ^ 8 % 16 < 10 →
    v.toNat % 2 ^ 32 ≠ 0 → decode neg w (some v) = .error .badPseudoInstruction) ∧
  (∀ (neg : NegReading) (w v : Word), w.toNat % 256 = 0x18 → w &&& 0xFFFFF000 = 0 → w.toNat / 2 ^ 8 % 16 < 10 →
    v.toNat % 2 ^ 32 = 0 → ∃ g, decode neg w (some v) =
      .ok (.lddw g (BitVec.ofNat 64 (v.toNat / 2 ^ 32 * 2 ^ 32 + w.toNat / 2 ^ 32))))

/-- A program given as bytes for `INSN_BYTE_ORDER = little` is the list of the words whose fields the bytes hold:
opcode, src_reg over dst_reg, offset and imm low byte first (R43). -/
def Obligations.ProgramBytesLittle : Prop :=
  ∀ fs : List Fields, programOfBytes .little (fs.flatMap bytesOfFields) = some (fs.map Fields.toWord)

/-! ### Steps and outcomes -/

/-- A step runs the instruction that the words from `pc` on decode to: it is `exec` of it, and nothing is added around
it (R300, R81). -/
def Obligations.StepRunsDecoded : Prop :=
  ∀ (s : State) (i : Instr), Running s → 0 ≤ s.pc →
    decodeWords s.par.negReading (s.par.program.drop s.pc.toNat) = .ok i → step s = exec i s

/-- A step runs a well-formed instruction whose words stand in the program text from `pc` on (R41, R300). -/
def Obligations.StepRunsEncoded : Prop :=
  ∀ (s : State) (i : Instr) (before after : List Word), Running s → s.pc = before.length →
    s.par.program = before ++ encode i ++ after → i.wellFormed s.par.negReading = true → step s = exec i s

/-- The host's interface: after `withFetchWord` the next step runs the instruction of the table word. -/
def Obligations.FetchWordRuns : Prop :=
  ∀ (s : State) (nbits w : Nat) (i : Instr), s.par.negReading = .literal → decodeTableWord nbits w = some i →
    step (s.withFetchWord nbits w) = exec i (s.withFetchWord nbits w)

/-- A `pc` outside the program ends the run with `PcOutOfRange`; a `pc` at a word with opcode 0x00, such as the second
slot of a wide instruction, is refused; and within the program there is no such fault (R28). -/
def Obligations.PcRange : Prop :=
  (∀ s : State, Running s → (s.pc < 0 ∨ (s.par.program.length : Int) ≤ s.pc) →
    step s = .next (s.withFault (.pcOutOfRange s.pc))) ∧
  (∀ (s : State) (w : Word), Running s → 0 ≤ s.pc → s.par.program[s.pc.toNat]? = some w → w.toNat % 256 = 0 →
    step s = .refused (.word .illegalOpcode)) ∧
  (∀ s : State, Running s → 0 ≤ s.pc → s.pc < (s.par.program.length : Int) →
    step s ≠ .next (s.withFault (.pcOutOfRange s.pc)))

/-- A word the decoder refuses is no fault and has no next state: the step is the refusal (R302). -/
def Obligations.RefusedWordHasNoStep : Prop :=
  ∀ (s : State) (k : RefusalKind), Running s → 0 ≤ s.pc → s.pc < (s.par.program.length : Int) →
    decodeWords s.par.negReading (s.par.program.drop s.pc.toNat) = .error k → step s = .refused (.word k)

/-- Outcomes are final: there is a step exactly from `running`, and the model's one Host fault says that there is none
(R300, R306). -/
def Obligations.OutcomesFinal : Prop :=
  ∀ s : State, step s = .fault .runOver ↔ ¬Running s

/-- The legacy packet loads are refused with `LegacyPacketAccess`, whatever the rest of the word and whatever the
state: as instructions, and as words at `pc` (R282, R283). -/
def Obligations.LegacyRefused : Prop :=
  (∀ (s : State) (rest : BitVec 56),
    exec (.ldabsw rest) s = .refused (.word .legacyPacketAccess) ∧ exec (.ldabsh rest) s = .refused (.word .legacyPacketAccess) ∧
    exec (.ldabsb rest) s = .refused (.word .legacyPacketAccess) ∧ exec (.ldabsdw rest) s = .refused (.word .legacyPacketAccess) ∧
    exec (.ldindw rest) s = .refused (.word .legacyPacketAccess) ∧ exec (.ldindh rest) s = .refused (.word .legacyPacketAccess) ∧
    exec (.ldindb rest) s = .refused (.word .legacyPacketAccess) ∧ exec (.ldinddw rest) s = .refused (.word .legacyPacketAccess)) ∧
  (∀ (s : State) (w : Word), Running s → 0 ≤ s.pc → s.par.program[s.pc.toNat]? = some w →
    w.toNat % 256 ∈ legacyOpcodes → step s = .refused (.word .legacyPacketAccess))

/-! ### Invariants and whole-machine rules -/

/-- Every step keeps the invariant, from every state that has it (R40, R48, R58, R221). -/
def Obligations.StepKeepsInv : Prop :=
  ∀ s t : State, StateInv s → step s = .next t → StateInv t

/-- The state after reset has the invariant. -/
def Obligations.ResetInv : Prop := StateInv State.reset

/-- The start state of every valid launch has the invariant (R34, R55, R333). -/
def Obligations.LaunchInv : Prop :=
  ∀ l : Launch, l.valid = true → StateInv (State.launch l)

/-- No step changes R10 or a parameter of the run, the program text among them (R20, R25, R41). -/
def Obligations.FramePointerAndParametersConstant : Prop :=
  ∀ s t : State, step s = .next t → t.regs.r10 = s.regs.r10 ∧ t.par = s.par

/-- A fault is precise: the step that ends a run with a fault changes no register, no byte of memory and not `pc`
(R303). -/
def Obligations.FaultsPrecise : Prop :=
  ∀ (s t : State) (f : FaultInfo), step s = .next t → t.out = .faulted f → t = s.withFault f

/-- The run ends normally only by BPF_EXIT, with the value of R0 as the exit value and nothing else changed; running
past the last slot is the fault `PcOutOfRange` (R301). -/
def Obligations.OnlyExitEnds : Prop :=
  (∀ (s t : State) (v : Word), step s = .next t → t.out = .exited v →
    decodeWords s.par.negReading (s.par.program.drop s.pc.toNat) = .ok .exit ∧ Holds s (.gpr .r0) v ∧
      t = { s with out := .exited v }) ∧
  (∀ (s : State) (v : Word), Holds s (.gpr .r0) v → exec .exit s = .next { s with out := .exited v }) ∧
  (∀ s : State, Running s → s.pc = (s.par.program.length : Int) → step s = .next (s.withFault (.pcOutOfRange s.pc)))

/-- Sequencing: an instruction that runs on and is no jump goes on by the number of its slots, `ja` to its target, a
conditional jump to its target or to the next slot (R27). -/
def Obligations.Sequencing : Prop :=
  ∀ (i : Instr) (s t : State), Running s → exec i s = .next t → Running t →
    match (profile s.par.negReading i).kind with
    | .jump off => t.pc = s.target off
    | .conditional off => t.pc = s.target off ∨ t.pc = s.pc + 1
    | _ => t.pc = s.pc + (encode i).length

/-- Only stores, atomic operations and calls change data memory, and only loads, stores, atomic operations and calls
add to the history: a call by the accesses of its function to shared regions (R40, R58; how the history is kept is the
model's choice, log 12). -/
def Obligations.MemoryFrame : Prop :=
  ∀ (i : Instr) (s t : State), exec i s = .next t →
    ((profile s.par.negReading i).kind ∉ [.store, .atomic, .call] → t.mem = s.mem) ∧
    ((profile s.par.negReading i).kind ∉ [.load, .store, .atomic, .call] → t.history = s.history)

/-- An instruction changes no general purpose register but the one the table of R25 says it writes; a call also takes
R1 to R5 (R22, R25). -/
def Obligations.RegisterFrame : Prop :=
  ∀ (i : Instr) (s t : State) (g : GReg), exec i s = .next t → (profile s.par.negReading i).dest ≠ some g →
    ((profile s.par.negReading i).kind = .call → g ∉ argRegs) → t.regs.get g = s.regs.get g

/-- Reading a register that holds no value ends the run with `UninitRegister` and the number of the first such register
in the order dst_reg, src_reg, R0 (R24, R309 step 3); nothing else is changed (R303). -/
def Obligations.UninitRegisterFault : Prop :=
  ∀ (i : Instr) (s : State) (before : List Reg) (g : GReg) (after : List Reg), i.wellFormed s.par.negReading = true →
    (profile s.par.negReading i).reads = before ++ .gpr g :: after → (∀ r ∈ before, ∃ v, Holds s r v) → HoldsNone s g →
    exec i s = .next (s.withFault (.uninitRegister g))

/-- No arithmetic, byte swap, jump or wide instruction faults on registers that hold values, whatever the values: no
overflow, no division by zero, no shift amount, no jump target is a fault of theirs (R100, R106, R306, R307). -/
def Obligations.ArithmeticNeverFaults : Prop :=
  ∀ (i : Instr) (s : State), Running s → i.wellFormed s.par.negReading = true →
    (∀ r ∈ (profile s.par.negReading i).reads, ∃ v, Holds s r v) →
    (match (profile s.par.negReading i).kind with
     | .arith => True
     | .jump _ => True
     | .conditional _ => True
     | .wide => True
     | _ => False) → SafeOutcome (exec i s)

/-! ### Arithmetic (40_alu.md): add, sub, mul, div, mod, or, and, xor, mov, neg, lsh, rsh, arsh -/

/-- The four forms of add (R107; R108 to R111): the sum modulo 2^N. -/
def Obligations.AddResult : Prop :=
  ArithForms .add32K .add32X .add64K .add64X fun n d s => (d + s) % 2 ^ n

/-- The four forms of sub (R107; R112 to R115): the difference modulo 2^N. -/
def Obligations.SubResult : Prop :=
  ArithForms .sub32K .sub32X .sub64K .sub64X fun n d s => (d + 2 ^ n - s) % 2 ^ n

/-- The four forms of mul (R107; R116 to R119): the low half of the product. -/
def Obligations.MulResult : Prop :=
  ArithForms .mul32K .mul32X .mul64K .mul64X fun n d s => d * s % 2 ^ n

/-- The four forms of div and of mod: unsigned; a zero divisor gives 0, and for mod the destination operand, with the
upper half zero in the 32-bit class (R104). -/
def Obligations.DivModResult : Prop :=
  ArithForms .div32K .div32X .div64K .div64X (fun _ d s => if s = 0 then 0 else d / s) ∧
  ArithForms .mod32K .mod32X .mod64K .mod64X (fun _ d s => if s = 0 then d else d % s)

/-- The four forms each of or, and, xor, bit by bit (R107; R124 to R131, R148 to R151). -/
def Obligations.BitwiseResult : Prop :=
  ArithForms .or32K .or32X .or64K .or64X (fun _ d s => d ||| s) ∧
  ArithForms .and32K .and32X .and64K .and64X (fun _ d s => d &&& s) ∧
  ArithForms .xor32K .xor32X .xor64K .xor64X (fun _ d s => d ^^^ s)

/-- The four forms of mov: the source operand, with the upper half zero in the 32-bit class; the old dst is not read and
may hold no value (R107; R152 to R155). -/
def Obligations.MovResult : Prop :=
  (∀ (s : State) (dst : GReg) (imm : BitVec 32),
    exec (.mov32K dst imm) s = .next (s.wrote dst (BitVec.ofNat 64 imm.toNat)) ∧
    exec (.mov64K dst imm) s = .next (s.wrote dst (BitVec.ofInt 64 imm.toInt))) ∧
  (∀ (s : State) (dst : GReg) (src : Reg) (v : Word), Holds s src v →
    exec (.mov32X dst src) s = .next (s.wrote dst (BitVec.ofNat 64 (v.toNat % 2 ^ 32))) ∧
    exec (.mov64X dst src) s = .next (s.wrote dst v))

/-- BPF_NEG under both readings (R105): the complement of the source operand, dst not read; under `negate_dst` the
negation of dst for imm = 0, and the BPF_X words and a non-zero imm refused. -/
def Obligations.NegResult : Prop :=
  (∀ (s : State) (dst : GReg) (imm : BitVec 32), s.par.negReading = .literal →
    exec (.neg32K dst imm) s = .next (s.wrote dst (BitVec.ofNat 64 (2 ^ 32 - 1 - imm.toNat))) ∧
    exec (.neg64K dst imm) s = .next (s.wrote dst (BitVec.ofInt 64 (-1 - imm.toInt)))) ∧
  (∀ (s : State) (dst : GReg) (src : Reg) (v : Word), s.par.negReading = .literal → Holds s src v →
    exec (.neg32X dst src) s = .next (s.wrote dst (BitVec.ofNat 64 (2 ^ 32 - 1 - v.toNat % 2 ^ 32))) ∧
    exec (.neg64X dst src) s = .next (s.wrote dst (BitVec.ofNat 64 (2 ^ 64 - 1 - v.toNat)))) ∧
  (∀ (s : State) (dst : GReg) (d : Word), s.par.negReading = .negateDst → Holds s (.gpr dst) d →
    exec (.neg32K dst 0) s = .next (s.wrote dst (BitVec.ofNat 64 ((2 ^ 32 - d.toNat % 2 ^ 32) % 2 ^ 32))) ∧
    exec (.neg64K dst 0) s = .next (s.wrote dst (BitVec.ofNat 64 (2 ^ 64 - d.toNat)))) ∧
  (∀ (w : Word) (second : Option Word),
    (w.toNat % 256 = 0x8c ∨ w.toNat % 256 = 0x8f → decode .negateDst w second = .error .illegalOpcode) ∧
    (w.toNat % 256 = 0x84 ∨ w.toNat % 256 = 0x87 → w.toNat / 2 ^ 32 ≠ 0 →
      decode .negateDst w second = .error .nonzeroUnusedField))

/-- The twelve shifts (R103): by less than the width, the shift left, the shift right with zeros, the shift right with
the sign; by the width or more, under `unspecified` a free value, zero-extended in the 32-bit class, and under `mask` the
shift by the amount modulo the width. The 32-bit amount is the low half of src or imm, the 64-bit one is unsigned. -/
def Obligations.ShiftResult : Prop :=
  ShiftForms .lsh32K .lsh32X .lsh64K .lsh64X (fun n d k => d * 2 ^ k % 2 ^ n) ∧
  ShiftForms .rsh32K .rsh32X .rsh64K .rsh64X (fun _ d k => d / 2 ^ k) ∧
  ShiftForms .arsh32K .arsh32X .arsh64K .arsh64X (fun n d k => ((BitVec.ofNat n d).toInt / 2 ^ k % 2 ^ n).toNat)

/-- The six byte swaps: the low W bits, reversed byte by byte where the host has the other order, over zeros (R161,
R162). -/
def Obligations.ByteSwapResult : Prop :=
  SwapForm .le16 .little 2 ∧ SwapForm .le32 .little 4 ∧ SwapForm .le64 .little 8 ∧
  SwapForm .be16 .big 2 ∧ SwapForm .be32 .big 4 ∧ SwapForm .be64 .big 8

/-- lddw writes the concatenation of next_imm and imm to dst, and goes on by two slots; nothing is read (R73, R280). -/
def Obligations.LddwResult : Prop :=
  ∀ (s : State) (dst : GReg) (imm next : BitVec 32), exec (.lddw dst (next ++ imm)) s =
    .next { s with regs := s.regs.set dst (some (BitVec.ofNat 64 (next.toNat * 2 ^ 32 + imm.toNat))), pc := s.pc + 2 }

/-! ### Jumps, call, exit (42_jump.md) -/

/-- `ja` goes to `pc + 1 + s(offset)`, from -32768 to +32767 slots from the slot after it, and changes nothing else
(R172). -/
def Obligations.JaResult : Prop :=
  ∀ (s : State) (off : BitVec 16), exec (.ja off) s = .next (s.goto (s.pc + 1 + off.toInt)) ∧
    -32768 ≤ off.toInt ∧ off.toInt ≤ 32767

/-- The four forms each of jeq, jne and jset (R171, R173; R175 to R178, R187 to R194). -/
def Obligations.EqualityJumps : Prop :=
  JumpForms .jeqK .jeqX .jeq32K .jeq32X (fun _ d s => d.toNat = s.toNat) ∧
  JumpForms .jneK .jneX .jne32K .jne32X (fun _ d s => d.toNat ≠ s.toNat) ∧
  JumpForms .jsetK .jsetX .jset32K .jset32X (fun _ d s => ∃ b, d.getLsbD b = true ∧ s.getLsbD b = true)

/-- The four forms each of jgt, jge, jlt and jle: unsigned (R171, R173; R179 to R186, R203 to R210). -/
def Obligations.UnsignedJumps : Prop :=
  JumpForms .jgtK .jgtX .jgt32K .jgt32X (fun _ d s => d.toNat > s.toNat) ∧
  JumpForms .jgeK .jgeX .jge32K .jge32X (fun _ d s => d.toNat ≥ s.toNat) ∧
  JumpForms .jltK .jltX .jlt32K .jlt32X (fun _ d s => d.toNat < s.toNat) ∧
  JumpForms .jleK .jleX .jle32K .jle32X (fun _ d s => d.toNat ≤ s.toNat)

/-- The four forms each of jsgt, jsge, jslt and jsle: two's complement (R171, R173; R195 to R202, R211 to R218). -/
def Obligations.SignedJumps : Prop :=
  JumpForms .jsgtK .jsgtX .jsgt32K .jsgt32X (fun _ d s => d.toInt > s.toInt) ∧
  JumpForms .jsgeK .jsgeX .jsge32K .jsge32X (fun _ d s => d.toInt ≥ s.toInt) ∧
  JumpForms .jsltK .jsltX .jslt32K .jslt32X (fun _ d s => d.toInt < s.toInt) ∧
  JumpForms .jsleK .jsleX .jsle32K .jsle32X (fun _ d s => d.toInt ≤ s.toInt)

/-- A call whose function is in `HELPERS` and returns: R0 receives the result, R1 to R5 hold no value, R6 to R10 keep
theirs, `pc` goes on by one slot, a byte of memory changes only where the function writes it, which is in a region and
where its description says, the last write deciding, and its accesses to shared regions join the history (R58, R221,
R224). How a description is written down, and its events of one byte, are the model's choice (logs 8, 12). The second clause is R224's own example. -/
def Obligations.CallReturns : Prop :=
  (∀ (s : State) (imm : BitVec 32) (h : Helper) (args : List Word) (ret : Word) (w : HelperRun),
    findHelper s.par imm = some h → List.Forall₂ (fun g v => Holds s (.gpr g) v) (argRegs.take h.nargs.val) args →
    s.helperCall h args = some (ret, w) →
    ∃ t, exec (.call imm) s = .next t ∧
      t = { s with
        regs := { s.regs with r0 := some ret, r1 := none, r2 := none, r3 := none, r4 := none, r5 := none }
        pc := s.pc + 1, mem := t.mem, history := s.history ++ w.events, draws := w.draws } ∧
      (∀ c ∈ w.writes, c.1 < 2 ^ 64 ∧ mapped s.par c.1 ∧
        ∃ p ∈ h.mayWrite, p.base.toNat ≤ c.1 ∧ c.1 < p.base.toNat + p.length) ∧
      (∀ e ∈ w.events, e.inShared s.par) ∧
      (∀ a, (∀ c ∈ w.writes, c.1 ≠ a) → t.byteAt a = s.byteAt a) ∧
      (∀ before a b after, w.writes = before ++ (a, b) :: after → (∀ c ∈ after, c.1 ≠ a) → t.byteAt a = b)) ∧
  (∀ (s : State) (imm : BitVec 32) (h : Helper) (a b : Word), findHelper s.par imm = some h → h.nargs = 2 →
    h.body = .returns (.op .add (.known 0) (.known 1)) → Holds s (.gpr .r1) a → Holds s (.gpr .r2) b →
    exec (.call imm) s = .next { s with
      regs := { s.regs with
        r0 := some (BitVec.ofNat 64 ((a.toNat + b.toNat) % 2 ^ 64))
        r1 := none, r2 := none, r3 := none, r4 := none, r5 := none }
      pc := s.pc + 1 })

/-- The faults of a call, in their order: no entry for the number, before any argument is read; the first argument
register the function takes that holds no value, before the function runs; the function's own fault (R224, R309). -/
def Obligations.CallFaults : Prop :=
  (∀ (s : State) (imm : BitVec 32), (∀ h ∈ s.par.helpers, h.number ≠ imm) →
    exec (.call imm) s = .next (s.withFault (.unknownFunction imm))) ∧
  (∀ (s : State) (imm : BitVec 32) (h : Helper) (before : List GReg) (g : GReg) (after : List GReg),
    findHelper s.par imm = some h → argRegs.take h.nargs.val = before ++ g :: after →
    (∀ r ∈ before, ∃ v, Holds s (.gpr r) v) → HoldsNone s g →
    exec (.call imm) s = .next (s.withFault (.uninitRegister g))) ∧
  (∀ (s : State) (imm : BitVec 32) (h : Helper) (args : List Word), findHelper s.par imm = some h →
    List.Forall₂ (fun g v => Holds s (.gpr g) v) (argRegs.take h.nargs.val) args → s.helperCall h args = none →
    exec (.call imm) s = .next (s.withFault (.helperFault imm)))

/-- `exit` ends the run with the whole of R0 as the exit value, and `pc`, registers and memory stay; with no value in R0
it is the fault `UninitRegister` of R0 (R225). -/
def Obligations.ExitResult : Prop :=
  (∀ (s : State) (v : Word), Holds s (.gpr .r0) v → exec .exit s = .next { s with out := .exited v }) ∧
  (∀ s : State, HoldsNone s .r0 → exec .exit s = .next (s.withFault (.uninitRegister .r0)))

/-! ### Loads and stores (43_load_store.md) -/

/-- The effective address: base plus signed offset, modulo 2^64 (R50). -/
def Obligations.EffectiveAddress : Prop :=
  ∀ (base : Word) (off : BitVec 16), ((effAddr base off).toNat : Int) = ((base.toNat : Int) + off.toInt) % 2 ^ 64

/-- The four loads, ldxb, ldxh, ldxw and ldxdw: dst receives the number the access reads, zero-extended; a shared region
gives drawn bytes and records the access; memory is unchanged (R44, R231, R242 to R245). -/
def Obligations.LoadResult : Prop :=
  ∀ (s : State) (sz : Size) (dst : GReg) (src : Reg) (off : BitVec 16) (base : Word) (r : Region),
    Holds s src base → Access s.par .read r (effAddr base off) sz.bytes →
    exec (loadOf sz dst src off) s = .next { s.wrote dst (BitVec.ofNat 64 (s.accessValue r (effAddr base off) sz.bytes)) with
      draws := s.drawsAfter r sz.bytes
      history := s.historyWith r (.read .thisRun (effAddr base off) sz.bytes
        (BitVec.ofNat 64 (s.accessValue r (effAddr base off) sz.bytes))) }

/-- The stores of a register, stxb, stxh, stxw and stxdw, and of an immediate, stb, sth, stw and stdw: the low bytes of
src, or of the sign-extended imm, stand at the effective address in host byte order, every other byte and every register
is as before (R45, R232, R234 to R241). -/
def Obligations.StoreResult : Prop :=
  (∀ (s : State) (sz : Size) (dst src : Reg) (off : BitVec 16) (base v : Word) (r : Region),
    Holds s dst base → Holds s src v → Access s.par .write r (effAddr base off) sz.bytes →
    ∃ t, exec (storeRegOf sz dst src off) s = .next t ∧ StoredAt s t (effAddr base off) sz.bytes v.toNat ∧
      t = { s with pc := s.pc + 1, mem := t.mem, history := s.historyWith r (.write .thisRun (effAddr base off) sz.bytes
        (BitVec.ofNat 64 (v.toNat % 256 ^ sz.bytes))) }) ∧
  (∀ (s : State) (sz : Size) (dst : Reg) (off : BitVec 16) (imm : BitVec 32) (base : Word) (r : Region),
    Holds s dst base → Access s.par .write r (effAddr base off) sz.bytes →
    ∃ t, exec (storeImmOf sz dst off imm) s = .next t ∧
      StoredAt s t (effAddr base off) sz.bytes (imm.signExtend 64).toNat ∧
      t = { s with pc := s.pc + 1, mem := t.mem, history := s.historyWith r (.write .thisRun (effAddr base off) sz.bytes
        (BitVec.ofNat 64 ((imm.signExtend 64).toNat % 256 ^ sz.bytes))) })

/-- An access that fails a check ends the run with the fault of the first check that fails, in the order wrap,
alignment, region, and changes nothing else: loads, stores, and atomic operations, which check alignment under every
policy (R46, R48, R49). -/
def Obligations.AccessFaults : Prop :=
  (∀ (s : State) (sz : Size) (dst : GReg) (src : Reg) (off : BitVec 16) (base : Word) (f : FaultInfo), Holds s src base →
    AccessFault s.par .read (effAddr base off) sz.bytes f → exec (loadOf sz dst src off) s = .next (s.withFault f)) ∧
  (∀ (s : State) (sz : Size) (dst src : Reg) (off : BitVec 16) (base v : Word) (f : FaultInfo), Holds s dst base →
    Holds s src v → AccessFault s.par .write (effAddr base off) sz.bytes f →
    exec (storeRegOf sz dst src off) s = .next (s.withFault f)) ∧
  (∀ (s : State) (sz : Size) (dst : Reg) (off : BitVec 16) (imm : BitVec 32) (base : Word) (f : FaultInfo),
    Holds s dst base → AccessFault s.par .write (effAddr base off) sz.bytes f →
    exec (storeImmOf sz dst off imm) s = .next (s.withFault f)) ∧
  (∀ (s : State) (z : AtomicSize) (op : RmwOp) (dst src : Reg) (off : BitVec 16) (base v : Word) (f : FaultInfo),
    Holds s dst base → Holds s src v → AccessFault s.par .atomic (effAddr base off) z.bytes f →
    exec (simpleOf z op dst src off) s = .next (s.withFault f) ∧
    (∀ c, Holds s (.gpr .r0) c → exec (compareExchangeOf z dst src off) s = .next (s.withFault f))) ∧
  (∀ (s : State) (z : AtomicSize) (op : RmwOp) (dst : Reg) (src : GReg) (off : BitVec 16) (base v : Word) (f : FaultInfo),
    Holds s dst base → Holds s (.gpr src) v → AccessFault s.par .atomic (effAddr base off) z.bytes f →
    exec (fetchOf z op dst src off) s = .next (s.withFault f) ∧
    exec (exchangeOf z dst src off) s = .next (s.withFault f))

/-- A store to a private region is seen by the next load of the same bytes (R58 b, R335). -/
def Obligations.StoreThenLoad : Prop :=
  ∀ (s : State) (sz : Size) (dst src : Reg) (g : GReg) (off : BitVec 16) (base v : Word) (r : Region),
    Holds s dst base → Holds s src v → r.shared = false → r.readable = true →
    Access s.par .write r (effAddr base off) sz.bytes →
    ∃ t, exec (storeRegOf sz dst src off) s = .next t ∧
      exec (loadOf sz g dst off) t = .next (t.wrote g (BitVec.ofNat 64 (v.toNat % 256 ^ sz.bytes)))

/-- An access of one width sees the bytes that an access of another width wrote, laid out by the host byte order (R63,
with the rule's own numbers). -/
def Obligations.MixedWidth : Prop :=
  ∀ (s : State) (a : Word) (r : Region), r.shared = false → r.readable = true → a.toNat % 8 = 0 →
    Access s.par .write r a 8 →
    ∃ t, memWrite s a .dw 0x1122334455667788 = .ok t ∧
      (s.par.hostEndian = .little → memRead t a .b = .ok (0x88, t) ∧ memRead t (a + 6) .h = .ok (0x1122, t) ∧
        memRead t (a + 4) .w = .ok (0x11223344, t)) ∧
      (s.par.hostEndian = .big → memRead t a .b = .ok (0x11, t) ∧ memRead t (a + 6) .h = .ok (0x7788, t) ∧
        memRead t (a + 4) .w = .ok (0x55667788, t))

/-! ### Atomic operations (44_atomic.md) -/

/-- The eight simple atomic operations: the operation of the old value and src is stored in the one step, and no
register changes (R251, R253, R254 to R261). -/
def Obligations.AtomicSimple : Prop :=
  ∀ (s : State) (z : AtomicSize) (op : RmwOp) (dst src : Reg) (off : BitVec 16) (base v : Word) (r : Region),
    Holds s dst base → Holds s src v → Access s.par .atomic r (effAddr base off) z.bytes →
    ∃ t, exec (simpleOf z op dst src off) s = .next t ∧
      StoredAt s t (effAddr base off) z.bytes
        (op.apply z.bytes (s.accessValue r (effAddr base off) z.bytes) v.toNat) ∧
      t = s.afterAtomic t r (effAddr base off) z.bytes (s.accessValue r (effAddr base off) z.bytes)
        (some (op.apply z.bytes (s.accessValue r (effAddr base off) z.bytes) v.toNat)) s.regs

/-- The eight fetching atomic operations: as the simple ones, and src receives the old value, zero-extended; where src
is the base too, the address is formed from its old value (R252, R262 to R269). -/
def Obligations.AtomicFetch : Prop :=
  ∀ (s : State) (z : AtomicSize) (op : RmwOp) (dst : Reg) (src : GReg) (off : BitVec 16) (base v : Word) (r : Region),
    Holds s dst base → Holds s (.gpr src) v → Access s.par .atomic r (effAddr base off) z.bytes →
    ∃ t, exec (fetchOf z op dst src off) s = .next t ∧
      StoredAt s t (effAddr base off) z.bytes
        (op.apply z.bytes (s.accessValue r (effAddr base off) z.bytes) v.toNat) ∧
      t = s.afterAtomic t r (effAddr base off) z.bytes (s.accessValue r (effAddr base off) z.bytes)
        (some (op.apply z.bytes (s.accessValue r (effAddr base off) z.bytes) v.toNat))
        (s.regs.set src (some (BitVec.ofNat 64 (s.accessValue r (effAddr base off) z.bytes))))

/-- The two exchanges: memory receives the low bytes of src, src the old value, zero-extended (R270, R271). -/
def Obligations.AtomicExchange : Prop :=
  ∀ (s : State) (z : AtomicSize) (dst : Reg) (src : GReg) (off : BitVec 16) (base v : Word) (r : Region),
    Holds s dst base → Holds s (.gpr src) v → Access s.par .atomic r (effAddr base off) z.bytes →
    ∃ t, exec (exchangeOf z dst src off) s = .next t ∧ StoredAt s t (effAddr base off) z.bytes v.toNat ∧
      t = s.afterAtomic t r (effAddr base off) z.bytes (s.accessValue r (effAddr base off) z.bytes)
        (some (v.toNat % 256 ^ z.bytes))
        (s.regs.set src (some (BitVec.ofNat 64 (s.accessValue r (effAddr base off) z.bytes))))

/-- The two compare and exchange operations: where the old value is the low bytes of R0, the low bytes of src are
stored, and where it is not, no byte changes; in either case R0 receives the old value, zero-extended (R272, R273). -/
def Obligations.AtomicCompareExchange : Prop :=
  ∀ (s : State) (z : AtomicSize) (dst src : Reg) (off : BitVec 16) (base v c : Word) (r : Region),
    Holds s dst base → Holds s src v → Holds s (.gpr .r0) c → Access s.par .atomic r (effAddr base off) z.bytes →
    ∃ t, exec (compareExchangeOf z dst src off) s = .next t ∧
      (s.accessValue r (effAddr base off) z.bytes = c.toNat % 256 ^ z.bytes →
        StoredAt s t (effAddr base off) z.bytes v.toNat ∧
        t = s.afterAtomic t r (effAddr base off) z.bytes (s.accessValue r (effAddr base off) z.bytes)
          (some (v.toNat % 256 ^ z.bytes))
          (s.regs.set .r0 (some (BitVec.ofNat 64 (s.accessValue r (effAddr base off) z.bytes))))) ∧
      (s.accessValue r (effAddr base off) z.bytes ≠ c.toNat % 256 ^ z.bytes →
        t.mem = s.mem ∧
        t = s.afterAtomic t r (effAddr base off) z.bytes (s.accessValue r (effAddr base off) z.bytes) none
          (s.regs.set .r0 (some (BitVec.ofNat 64 (s.accessValue r (effAddr base off) z.bytes)))))

/-- An atomic operation at an address that is no multiple of its size faults under every `ALIGN_POLICY`, and a plain
access does so exactly under the policy `fault` (R47). -/
def Obligations.AlignmentCheck : Prop :=
  ∀ (par : Params) (kind : AccessKind) (addr : Word) (n : Nat), addr.toNat + n ≤ 2 ^ 64 → addr.toNat % n ≠ 0 →
    (checkAccess par kind addr n = .error (.misaligned addr n kind) ↔ kind = .atomic ∨ par.alignPolicy = .fault)

/-! ### Reset and launch -/

/-- What `State.reset` leaves: `pc` 0, OUT running, no byte listed, no event, R10 at the top of the one region, and R0 to
R9 at 0. The values of R0 to R9, R10 and the region are the model's choice (logs 1 and 2, DESIGN CHOICE). -/
def Obligations.ResetState : Prop :=
  State.reset.pc = 0 ∧ State.reset.out = .running ∧ State.reset.mem = [] ∧ State.reset.history = [] ∧
  (∀ g, Holds State.reset (.gpr g) 0) ∧
  ∃ r, State.reset.par.regions = [r] ∧ r.shared = false ∧ r.readable = true ∧ r.writable = true ∧
    State.reset.regs.r10.toNat = r.base.toNat + r.length

/-- The start value of every piece of state, for every valid launch (R34): R0 and R6 to R9 no value, R1 to R5 the
arguments, R10 the frame pointer, `pc` 0, OUT running, each region's launch content in memory, and the stack and every
other region of unconstrained content not listed. -/
def Obligations.LaunchState : Prop :=
  ∀ l : Launch, l.valid = true →
    (State.launch l).regs = ⟨none, l.arg1, l.arg2, l.arg3, l.arg4, l.arg5, none, none, none, none, l.fp⟩ ∧
    (State.launch l).pc = 0 ∧ (State.launch l).out = .running ∧
    (∀ r ∈ l.regions, ∀ bs, r.content = some bs → ∀ k (h : k < bs.length),
      (State.launch l).byteAt (r.base.toNat + k) = bs[k]) ∧
    (∀ r ∈ l.stack :: l.regions, r.content = none → ∀ k, k < r.length →
      Memory.get (State.launch l).mem (r.base.toNat + k) = none)

/-- The stack of a valid launch is the private, readable and writable region of STACK_SIZE bytes that ends at the value
R10 holds (R56). -/
def Obligations.LaunchStack : Prop :=
  ∀ l : Launch, l.valid = true → l.stack ∈ (State.launch l).par.regions ∧
    l.stack.base.toNat + l.stackSize = (State.launch l).regs.r10.toNat ∧ l.stack.length = l.stackSize ∧
    l.stack.shared = false ∧ l.stack.readable = true ∧ l.stack.writable = true ∧
    (State.launch l).regs.r10.toNat % 8 = 0
end

