-- ==== Sys2Proof/Laws/State.lean ====
section
/-! SUPPORT. One lemma per field for each named update of the state, and the laws of the register file. -/

namespace Sys2Proof.Machine

/-! ### `State.put` -/

@[simp] theorem State.put_regs (s : State) (g : GReg) (v : Word) :
    (s.put g v).regs = s.regs.set g (some v) := rfl

@[simp] theorem State.put_pc (s : State) (g : GReg) (v : Word) :
    (s.put g v).pc = s.pc := rfl

@[simp] theorem State.put_mem (s : State) (g : GReg) (v : Word) :
    (s.put g v).mem = s.mem := rfl

@[simp] theorem State.put_out (s : State) (g : GReg) (v : Word) :
    (s.put g v).out = s.out := rfl

@[simp] theorem State.put_history (s : State) (g : GReg) (v : Word) :
    (s.put g v).history = s.history := rfl

@[simp] theorem State.put_par (s : State) (g : GReg) (v : Word) :
    (s.put g v).par = s.par := rfl

@[simp] theorem State.put_draws (s : State) (g : GReg) (v : Word) :
    (s.put g v).draws = s.draws := rfl

/-! ### `State.advance` -/

@[simp] theorem State.advance_regs (s : State) :
    s.advance.regs = s.regs := rfl

@[simp] theorem State.advance_pc (s : State) :
    s.advance.pc = s.pc + 1 := rfl

@[simp] theorem State.advance_mem (s : State) :
    s.advance.mem = s.mem := rfl

@[simp] theorem State.advance_out (s : State) :
    s.advance.out = s.out := rfl

@[simp] theorem State.advance_history (s : State) :
    s.advance.history = s.history := rfl

@[simp] theorem State.advance_par (s : State) :
    s.advance.par = s.par := rfl

@[simp] theorem State.advance_draws (s : State) :
    s.advance.draws = s.draws := rfl

/-! ### `State.jump` -/

@[simp] theorem State.jump_regs (s : State) (off : BitVec 16) :
    (s.jump off).regs = s.regs := rfl

@[simp] theorem State.jump_pc (s : State) (off : BitVec 16) :
    (s.jump off).pc = s.pc + 1 + off.toInt := rfl

@[simp] theorem State.jump_mem (s : State) (off : BitVec 16) :
    (s.jump off).mem = s.mem := rfl

@[simp] theorem State.jump_out (s : State) (off : BitVec 16) :
    (s.jump off).out = s.out := rfl

@[simp] theorem State.jump_history (s : State) (off : BitVec 16) :
    (s.jump off).history = s.history := rfl

@[simp] theorem State.jump_par (s : State) (off : BitVec 16) :
    (s.jump off).par = s.par := rfl

@[simp] theorem State.jump_draws (s : State) (off : BitVec 16) :
    (s.jump off).draws = s.draws := rfl

/-! ### `State.dropArgs` -/

@[simp] theorem State.dropArgs_regs (s : State) :
    s.dropArgs.regs = { s.regs with r1 := none, r2 := none, r3 := none, r4 := none, r5 := none } := rfl

@[simp] theorem State.dropArgs_pc (s : State) :
    s.dropArgs.pc = s.pc := rfl

@[simp] theorem State.dropArgs_mem (s : State) :
    s.dropArgs.mem = s.mem := rfl

@[simp] theorem State.dropArgs_out (s : State) :
    s.dropArgs.out = s.out := rfl

@[simp] theorem State.dropArgs_history (s : State) :
    s.dropArgs.history = s.history := rfl

@[simp] theorem State.dropArgs_par (s : State) :
    s.dropArgs.par = s.par := rfl

@[simp] theorem State.dropArgs_draws (s : State) :
    s.dropArgs.draws = s.draws := rfl

/-! ### `State.store` -/

@[simp] theorem State.store_regs (s : State) (a : Word) (n : Nat) (v : Word) :
    (s.store a n v).regs = s.regs := rfl

@[simp] theorem State.store_pc (s : State) (a : Word) (n : Nat) (v : Word) :
    (s.store a n v).pc = s.pc := rfl

@[simp] theorem State.store_mem (s : State) (a : Word) (n : Nat) (v : Word) :
    (s.store a n v).mem = Memory.setBytes s.mem a.toNat (splitBytes s.par.hostEndian n v) := rfl

@[simp] theorem State.store_out (s : State) (a : Word) (n : Nat) (v : Word) :
    (s.store a n v).out = s.out := rfl

@[simp] theorem State.store_history (s : State) (a : Word) (n : Nat) (v : Word) :
    (s.store a n v).history = s.history := rfl

@[simp] theorem State.store_par (s : State) (a : Word) (n : Nat) (v : Word) :
    (s.store a n v).par = s.par := rfl

@[simp] theorem State.store_draws (s : State) (a : Word) (n : Nat) (v : Word) :
    (s.store a n v).draws = s.draws := rfl

/-! ### `State.afterHelper` -/

@[simp] theorem State.afterHelper_regs (s : State) (w : HelperRun) :
    (s.afterHelper w).regs = s.regs := rfl

@[simp] theorem State.afterHelper_pc (s : State) (w : HelperRun) :
    (s.afterHelper w).pc = s.pc := rfl

@[simp] theorem State.afterHelper_mem (s : State) (w : HelperRun) :
    (s.afterHelper w).mem = Memory.setCells s.mem w.writes := rfl

@[simp] theorem State.afterHelper_out (s : State) (w : HelperRun) :
    (s.afterHelper w).out = s.out := rfl

@[simp] theorem State.afterHelper_history (s : State) (w : HelperRun) :
    (s.afterHelper w).history = s.history ++ w.events := rfl

@[simp] theorem State.afterHelper_par (s : State) (w : HelperRun) :
    (s.afterHelper w).par = s.par := rfl

@[simp] theorem State.afterHelper_draws (s : State) (w : HelperRun) :
    (s.afterHelper w).draws = w.draws := rfl

/-! ### `State.branch` -/

@[simp] theorem State.branch_regs (s : State) (t : Bool) (off : BitVec 16) :
    (s.branch t off).regs = s.regs := by cases t <;> rfl

@[simp] theorem State.branch_pc (s : State) (t : Bool) (off : BitVec 16) :
    (s.branch t off).pc = if t then s.pc + 1 + off.toInt else s.pc + 1 := by cases t <;> rfl

@[simp] theorem State.branch_mem (s : State) (t : Bool) (off : BitVec 16) :
    (s.branch t off).mem = s.mem := by cases t <;> rfl

@[simp] theorem State.branch_out (s : State) (t : Bool) (off : BitVec 16) :
    (s.branch t off).out = s.out := by cases t <;> rfl

@[simp] theorem State.branch_history (s : State) (t : Bool) (off : BitVec 16) :
    (s.branch t off).history = s.history := by cases t <;> rfl

@[simp] theorem State.branch_par (s : State) (t : Bool) (off : BitVec 16) :
    (s.branch t off).par = s.par := by cases t <;> rfl

@[simp] theorem State.branch_draws (s : State) (t : Bool) (off : BitVec 16) :
    (s.branch t off).draws = s.draws := by cases t <;> rfl

/-! ### `State.afterResult` -/

@[simp] theorem State.afterResult_regs {n : Nat} (s : State) (o : Option (BitVec n)) :
    (s.afterResult o).regs = s.regs := by cases o <;> rfl

@[simp] theorem State.afterResult_pc {n : Nat} (s : State) (o : Option (BitVec n)) :
    (s.afterResult o).pc = s.pc := by cases o <;> rfl

@[simp] theorem State.afterResult_mem {n : Nat} (s : State) (o : Option (BitVec n)) :
    (s.afterResult o).mem = s.mem := by cases o <;> rfl

@[simp] theorem State.afterResult_out {n : Nat} (s : State) (o : Option (BitVec n)) :
    (s.afterResult o).out = s.out := by cases o <;> rfl

@[simp] theorem State.afterResult_history {n : Nat} (s : State) (o : Option (BitVec n)) :
    (s.afterResult o).history = s.history := by cases o <;> rfl

@[simp] theorem State.afterResult_par {n : Nat} (s : State) (o : Option (BitVec n)) :
    (s.afterResult o).par = s.par := by cases o <;> rfl

@[simp] theorem State.afterResult_draws {n : Nat} (s : State) (o : Option (BitVec n)) :
    (s.afterResult o).draws = match o with | some _ => s.draws | none => s.draws + 1 := by cases o <;> rfl

/-! ### `State.afterRead` -/

@[simp] theorem State.afterRead_regs (s : State) (r : Region) (n : Nat) :
    (s.afterRead r n).regs = s.regs := by unfold State.afterRead; split <;> rfl

@[simp] theorem State.afterRead_pc (s : State) (r : Region) (n : Nat) :
    (s.afterRead r n).pc = s.pc := by unfold State.afterRead; split <;> rfl

@[simp] theorem State.afterRead_mem (s : State) (r : Region) (n : Nat) :
    (s.afterRead r n).mem = s.mem := by unfold State.afterRead; split <;> rfl

@[simp] theorem State.afterRead_out (s : State) (r : Region) (n : Nat) :
    (s.afterRead r n).out = s.out := by unfold State.afterRead; split <;> rfl

@[simp] theorem State.afterRead_history (s : State) (r : Region) (n : Nat) :
    (s.afterRead r n).history = s.history := by unfold State.afterRead; split <;> rfl

@[simp] theorem State.afterRead_par (s : State) (r : Region) (n : Nat) :
    (s.afterRead r n).par = s.par := by unfold State.afterRead; split <;> rfl

@[simp] theorem State.afterRead_draws (s : State) (r : Region) (n : Nat) :
    (s.afterRead r n).draws = if r.shared then s.draws + n else s.draws := by unfold State.afterRead; split <;> rfl

/-! ### `State.record` -/

@[simp] theorem State.record_regs (s : State) (r : Region) (e : Event) :
    (s.record r e).regs = s.regs := by unfold State.record; split <;> rfl

@[simp] theorem State.record_pc (s : State) (r : Region) (e : Event) :
    (s.record r e).pc = s.pc := by unfold State.record; split <;> rfl

@[simp] theorem State.record_mem (s : State) (r : Region) (e : Event) :
    (s.record r e).mem = s.mem := by unfold State.record; split <;> rfl

@[simp] theorem State.record_out (s : State) (r : Region) (e : Event) :
    (s.record r e).out = s.out := by unfold State.record; split <;> rfl

@[simp] theorem State.record_history (s : State) (r : Region) (e : Event) :
    (s.record r e).history = if r.shared then s.history ++ [e] else s.history := by unfold State.record; split <;> rfl

@[simp] theorem State.record_par (s : State) (r : Region) (e : Event) :
    (s.record r e).par = s.par := by unfold State.record; split <;> rfl

@[simp] theorem State.record_draws (s : State) (r : Region) (e : Event) :
    (s.record r e).draws = s.draws := by unfold State.record; split <;> rfl

/-! ### `State.storeNew` -/

@[simp] theorem State.storeNew_regs (s : State) (a : Word) (n : Nat) (o : Option Word) :
    (s.storeNew a n o).regs = s.regs := by cases o <;> rfl

@[simp] theorem State.storeNew_pc (s : State) (a : Word) (n : Nat) (o : Option Word) :
    (s.storeNew a n o).pc = s.pc := by cases o <;> rfl

@[simp] theorem State.storeNew_mem (s : State) (a : Word) (n : Nat) (o : Option Word) :
    (s.storeNew a n o).mem = match o with | some v => Memory.setBytes s.mem a.toNat (splitBytes s.par.hostEndian n v) | none => s.mem := by cases o <;> rfl

@[simp] theorem State.storeNew_out (s : State) (a : Word) (n : Nat) (o : Option Word) :
    (s.storeNew a n o).out = s.out := by cases o <;> rfl

@[simp] theorem State.storeNew_history (s : State) (a : Word) (n : Nat) (o : Option Word) :
    (s.storeNew a n o).history = s.history := by cases o <;> rfl

@[simp] theorem State.storeNew_par (s : State) (a : Word) (n : Nat) (o : Option Word) :
    (s.storeNew a n o).par = s.par := by cases o <;> rfl

@[simp] theorem State.storeNew_draws (s : State) (a : Word) (n : Nat) (o : Option Word) :
    (s.storeNew a n o).draws = s.draws := by cases o <;> rfl

/-! ### `HelperRun.drawValue` -/

@[simp] theorem HelperRun.drawValue_known (w : HelperRun) : w.drawValue.known = w.known ++ [Config.draw 64 w.draws] := rfl

@[simp] theorem HelperRun.drawValue_writes (w : HelperRun) : w.drawValue.writes = w.writes := rfl

@[simp] theorem HelperRun.drawValue_events (w : HelperRun) : w.drawValue.events = w.events := rfl

@[simp] theorem HelperRun.drawValue_draws (w : HelperRun) : w.drawValue.draws = w.draws + 1 := rfl

/-! ### The register file -/

@[simp] theorem RegFile.get_set_same (rf : RegFile) (g : GReg) (v : Option Word) : (rf.set g v).get g = v := by
  cases g <;> rfl

theorem RegFile.get_set_ne (rf : RegFile) {g g' : GReg} (v : Option Word) (h : g' ≠ g) :
    (rf.set g v).get g' = rf.get g' := by
  cases g <;> cases g' <;> first | rfl | exact absurd rfl h

@[simp] theorem RegFile.set_r10 (rf : RegFile) (g : GReg) (v : Option Word) : (rf.set g v).r10 = rf.r10 := by
  cases g <;> rfl

theorem RegFile.set_get_self (rf : RegFile) (g : GReg) : rf.set g (rf.get g) = rf := by
  cases g <;> rfl

/-! ### Reading a register -/

@[simp] theorem State.read_r10 (s : State) : s.read .r10 = .ok s.regs.r10 := rfl

theorem State.read_gpr (s : State) (g : GReg) :
    s.read (.gpr g) = match s.regs.get g with | some v => .ok v | none => .error (.uninitRegister g) := rfl

theorem State.read_gpr_ok (s : State) {g : GReg} {v : Word} : s.read (.gpr g) = .ok v ↔ s.regs.get g = some v := by
  rw [State.read_gpr]; cases h : s.regs.get g <;> simp

theorem State.read_gpr_error (s : State) {g : GReg} {f : FaultInfo} :
    s.read (.gpr g) = .error f ↔ s.regs.get g = none ∧ f = .uninitRegister g := by
  rw [State.read_gpr]; cases h : s.regs.get g <;> simp [eq_comm]

/-- A register that faults on a read is one of R0 to R9 and holds no value. -/
theorem State.read_error {s : State} {r : Reg} {f : FaultInfo} (h : s.read r = .error f) :
    ∃ g, r = .gpr g ∧ s.regs.get g = none ∧ f = .uninitRegister g := by
  cases r with
  | r10 => simp at h
  | gpr g => exact ⟨g, rfl, (s.read_gpr_error).1 h⟩

/-! ### Outcomes -/

@[simp] theorem complete_ok (s t : State) : complete s (.ok t) = .next t := rfl

@[simp] theorem complete_error (s : State) (f : FaultInfo) : complete s (.error f) = .next { s with out := .faulted f } := rfl

/-- What `complete` answers: the state the pseudocode gave, or `s` with the fault it raised. -/
theorem complete_next {s t : State} {r : Except FaultInfo State} (h : complete s r = .next t) :
    r = .ok t ∨ ∃ f, r = .error f ∧ t = { s with out := .faulted f } := by
  cases r with
  | ok u => exact .inl (by cases h; rfl)
  | error f => exact .inr ⟨f, rfl, by cases h; rfl⟩

/-- `complete` always answers a next state. -/
theorem complete_isNext (s : State) (r : Except FaultInfo State) : ∃ t, complete s r = .next t := by
  cases r <;> exact ⟨_, rfl⟩

/-- A `do` line that succeeds took its value from a computation that succeeded. -/
theorem bind_ok {α β : Type} {x : Except FaultInfo α} {f : α → Except FaultInfo β} {b : β} :
    x.bind f = .ok b ↔ ∃ a, x = .ok a ∧ f a = .ok b := by
  cases x <;> simp [Except.bind]

/-- A `do` line that faults does so in its first or in its second part. -/
theorem bind_error {α β : Type} {x : Except FaultInfo α} {f : α → Except FaultInfo β} {e : FaultInfo} :
    x.bind f = .error e ↔ x = .error e ∨ ∃ a, x = .ok a ∧ f a = .error e := by
  cases x <;> simp [Except.bind]

end Sys2Proof.Machine
end

