-- ==== Sys2Proof/Laws/Memory.lean ====
section
/-! SUPPORT. The laws of data memory: bytes, the canonical form, byte order, and what each primitive can do. -/

namespace Sys2Proof.Machine

/-! ### One byte -/

@[simp] theorem Memory.get_set_same (m : Memory) (a : Nat) (b : Byte) : Memory.get (Memory.set m a b) a = some b := by
  induction m with
  | nil => simp [Memory.set, Memory.get]
  | cons c m ih =>
    obtain ⟨k, x⟩ := c
    simp only [Memory.set]
    split
    · simp [Memory.get]
    · split
      · simp [Memory.get]
      · rw [Memory.get, if_neg ‹_›, ih]

theorem Memory.get_set_ne (m : Memory) {a a' : Nat} (b : Byte) (h : a' ≠ a) :
    Memory.get (Memory.set m a b) a' = Memory.get m a' := by
  induction m with
  | nil => simp [Memory.set, Memory.get, h]
  | cons c m ih =>
    obtain ⟨k, x⟩ := c
    simp only [Memory.set]
    split
    · simp [Memory.get, h]
    · split
      · subst_vars; simp [Memory.get, h]
      · simp only [Memory.get, ih]

theorem Memory.get_setBytes_outside (bs : List Byte) :
    ∀ (m : Memory) (a a' : Nat), a' < a ∨ a + bs.length ≤ a' →
      Memory.get (Memory.setBytes m a bs) a' = Memory.get m a' := by
  induction bs with
  | nil => intros; rfl
  | cons b bs ih =>
    intro m a a' h
    simp only [List.length_cons] at h
    rw [Memory.setBytes, ih _ _ _ (by omega), Memory.get_set_ne _ _ (by omega)]

theorem Memory.get_setBytes_inside (bs : List Byte) :
    ∀ (m : Memory) (a k : Nat) (h : k < bs.length), Memory.get (Memory.setBytes m a bs) (a + k) = some bs[k] := by
  induction bs with
  | nil => intro m a k h; simp at h
  | cons b bs ih =>
    intro m a k h
    cases k with
    | zero => rw [Memory.setBytes, Memory.get_setBytes_outside _ _ _ _ (by omega)]; simp
    | succ k =>
      have := ih (Memory.set m a b) (a + 1) k (by simpa using h)
      rw [Memory.setBytes, show a + (k + 1) = a + 1 + k by omega, this]; rfl

/-! ### The canonical form -/

theorem Memory.rising_mono {m : Memory} : ∀ {lo lo' : Nat}, lo' ≤ lo → Memory.rising lo m = true → Memory.rising lo' m = true := by
  cases m with
  | nil => intros; rfl
  | cons c m =>
    intro lo lo' h hr
    simp only [Memory.rising, Bool.and_eq_true, decide_eq_true_eq] at *
    exact ⟨by omega, hr.2⟩

theorem Memory.rising_set (m : Memory) : ∀ (lo a : Nat) (b : Byte), lo ≤ a → Memory.rising lo m = true →
    Memory.rising lo (Memory.set m a b) = true := by
  induction m with
  | nil => intro lo a b h _; simpa [Memory.set, Memory.rising] using h
  | cons c m ih =>
    intro lo a b h hr
    obtain ⟨k, x⟩ := c
    simp only [Memory.rising, Bool.and_eq_true, decide_eq_true_eq] at hr
    simp only [Memory.set]
    split
    · simp only [Memory.rising, Bool.and_eq_true, decide_eq_true_eq]; exact ⟨h, by omega, hr.2⟩
    · split
      · subst_vars; simp only [Memory.rising, Bool.and_eq_true, decide_eq_true_eq]; exact hr
      · simp only [Memory.rising, Bool.and_eq_true, decide_eq_true_eq]
        exact ⟨hr.1, ih _ _ _ (by omega) hr.2⟩

/-- Writing one byte keeps the canonical form. -/
theorem Memory.wf_set {m : Memory} (a : Nat) (b : Byte) (h : m.wf = true) : Memory.wf (Memory.set m a b) = true :=
  Memory.rising_set m 0 a b (Nat.zero_le a) h

/-- Writing bytes keeps the canonical form. -/
theorem Memory.wf_setBytes (bs : List Byte) : ∀ {m : Memory} (a : Nat), m.wf = true →
    Memory.wf (Memory.setBytes m a bs) = true := by
  induction bs with
  | nil => intro m a h; exact h
  | cons b bs ih => intro m a h; exact ih _ (Memory.wf_set a b h)

/-- The bytes a called function writes keep the canonical form. -/
theorem Memory.wf_setCells (cs : List Host.Cell) : ∀ {m : Memory}, m.wf = true → Memory.wf (Memory.setCells m cs) = true := by
  induction cs with
  | nil => intro m h; exact h
  | cons c cs ih => intro m h; exact ih (Memory.wf_set c.1 c.2 h)

/-- In canonical form the entries of a memory are what reading it gives: equal contents are equal data. -/
theorem Memory.get_of_rising {m : Memory} : ∀ {lo a : Nat}, Memory.rising lo m = true → a < lo → Memory.get m a = none := by
  induction m with
  | nil => intros; rfl
  | cons c m ih =>
    intro lo a hr h
    obtain ⟨k, x⟩ := c
    simp only [Memory.rising, Bool.and_eq_true, decide_eq_true_eq] at hr
    rw [Memory.get, if_neg (by omega), ih hr.2 (by omega)]

/-! ### Which addresses are listed -/

theorem Memory.mem_set {m : Memory} {a : Nat} {b : Byte} {c : Host.Cell} (h : c ∈ Memory.set m a b) :
    c ∈ m ∨ c = (a, b) := by
  induction m with
  | nil => simpa [Memory.set] using h
  | cons d m ih =>
    obtain ⟨k, x⟩ := d
    simp only [Memory.set] at h
    split at h
    · simp only [List.mem_cons] at h ⊢; tauto
    · split at h
      · simp only [List.mem_cons] at h ⊢; tauto
      · simp only [List.mem_cons] at h ⊢
        rcases h with h | h
        · tauto
        · rcases ih h with h | h <;> tauto

theorem Memory.mem_setBytes (bs : List Byte) : ∀ {m : Memory} {a : Nat} {c : Host.Cell}, c ∈ Memory.setBytes m a bs →
    c ∈ m ∨ (a ≤ c.1 ∧ c.1 < a + bs.length) := by
  induction bs with
  | nil => intro m a c h; exact .inl h
  | cons b bs ih =>
    intro m a c h
    simp only [List.length_cons]
    rcases ih h with h | h
    · rcases Memory.mem_set h with h | h
      · exact .inl h
      · exact .inr (by subst h; simp)
    · exact .inr (by omega)

theorem Memory.mem_setCells (cs : List Host.Cell) : ∀ {m : Memory} {c : Host.Cell}, c ∈ Memory.setCells m cs →
    c ∈ m ∨ c ∈ cs := by
  induction cs with
  | nil => intro m c h; exact .inl h
  | cons d cs ih =>
    intro m c h
    rcases ih h with h | h
    · rcases Memory.mem_set h with h | h
      · exact .inl h
      · exact .inr (by subst h; simp)
    · exact .inr (List.mem_cons_of_mem _ h)

/-! ### Byte order -/

@[simp] theorem length_leBytes : ∀ (n v : Nat), (leBytes n v).length = n
  | 0, _ => rfl
  | n + 1, v => by simp [leBytes, length_leBytes n]

@[simp] theorem length_splitBytes (e : Endian) (n : Nat) (v : Word) : (splitBytes e n v).length = n := by
  cases e <;> simp [splitBytes]

@[simp] theorem length_bytesAt (s : State) : ∀ (a n : Nat), (s.bytesAt a n).length = n
  | _, 0 => rfl
  | a, n + 1 => by simp [State.bytesAt, length_bytesAt s]

@[simp] theorem length_drawBytes : ∀ (k n : Nat), (drawBytes k n).length = n
  | _, 0 => rfl
  | k, n + 1 => by simp [drawBytes, length_drawBytes]

theorem leNat_leBytes : ∀ (n v : Nat), leNat (leBytes n v) = v % 256 ^ n
  | 0, v => by simp [leBytes, leNat, Nat.mod_one]
  | n + 1, v => by
    rw [leBytes, leNat, leNat_leBytes n, BitVec.toNat_ofNat, show 256 ^ (n + 1) = 256 * 256 ^ n by ring, Nat.mod_mul]

/-- Reading back the bytes of a value gives its low bytes, in either byte order. -/
theorem joinBytes_splitBytes (e : Endian) (n : Nat) (v : Word) : joinBytes e (splitBytes e n v) = lowBytes n v := by
  cases e <;> simp [joinBytes, splitBytes, lowBytes, leNat_leBytes]

/-! ### Bytes of a state -/

theorem State.byteAt_store_outside (s : State) (addr : Word) (n : Nat) (v : Word) (a : Nat)
    (h : a < addr.toNat ∨ addr.toNat + n ≤ a) : (s.store addr n v).byteAt a = s.byteAt a := by
  unfold State.byteAt
  rw [State.store_mem, Memory.get_setBytes_outside _ _ _ _ (by simpa using h)]

theorem State.byteAt_store_inside (s : State) (addr : Word) (n : Nat) (v : Word) (k : Nat) (h : k < n) :
    (s.store addr n v).byteAt (addr.toNat + k) = (splitBytes s.par.hostEndian n v)[k]'(by simpa using h) := by
  unfold State.byteAt
  rw [State.store_mem, Memory.get_setBytes_inside _ _ _ _ (by simpa using h)]; rfl

theorem State.bytesAt_store_same (s : State) (addr : Word) (n : Nat) (v : Word) :
    (s.store addr n v).bytesAt addr.toNat n = splitBytes s.par.hostEndian n v := by
  have key : ∀ (t : State) (bs : List Byte) (a : Nat), (∀ k (h : k < bs.length), t.byteAt (a + k) = bs[k]) →
      t.bytesAt a bs.length = bs := by
    intro t bs
    induction bs with
    | nil => intros; rfl
    | cons b bs ih =>
      intro a h
      simp only [List.length_cons, State.bytesAt]
      rw [ih (a + 1) (fun k hk => by have := h (k + 1) (by simpa using hk); rw [show a + 1 + k = a + (k + 1) by omega, this]; rfl)]
      have := h 0 (by simp)
      simp at this; rw [this]
  have := key (s.store addr n v) (splitBytes s.par.hostEndian n v) addr.toNat
    (fun k hk => State.byteAt_store_inside s addr n v k (by simpa using hk))
  simpa using this

/-! ### The access checks and the primitives -/

/-- What a granted access satisfies (R46 to R48). -/
theorem checkAccess_ok {par : Params} {kind : AccessKind} {addr : Word} {n : Nat} {r : Region}
    (h : checkAccess par kind addr n = .ok r) :
    addr.toNat + n ≤ 2 ^ 64 ∧ (addr.toNat % n = 0 ∨ alignChecked par kind = false) ∧ r ∈ par.regions ∧
      regionCovers r addr.toNat n = true ∧ regionGrants r kind = true := by
  unfold checkAccess at h
  split at h
  · cases h
  · split at h
    · cases h
    · rename_i h1 h2
      split at h
      · rename_i q hq
        cases h
        have hp := List.find?_some hq
        simp only [Bool.and_eq_true] at hp
        refine ⟨by omega, ?_, List.mem_of_find?_eq_some hq, hp.1, hp.2⟩
        by_cases hz : addr.toNat % n = 0
        · exact .inl hz
        · exact .inr (by simpa using fun ha => h2 ⟨hz, ha⟩)
      · cases h

/-- A refused access reports `MemAccess` or `Misaligned` with its address, size and kind (R49). -/
theorem checkAccess_error {par : Params} {kind : AccessKind} {addr : Word} {n : Nat} {f : FaultInfo}
    (h : checkAccess par kind addr n = .error f) : f = .memAccess addr n kind ∨ f = .misaligned addr n kind := by
  unfold checkAccess at h
  split at h
  · cases h; exact .inl rfl
  · split at h
    · cases h; exact .inr rfl
    · split at h
      · cases h
      · cases h; exact .inl rfl

/-- All that `memRead` can do. -/
theorem memRead_cases (s : State) (addr : Word) (sz : Size) :
    (∃ r, checkAccess s.par .read addr sz.bytes = .ok r ∧ memRead s addr sz = .ok (s.valueAt r addr sz.bytes,
      (s.afterRead r sz.bytes).record r (.read .thisRun addr sz.bytes (s.valueAt r addr sz.bytes)))) ∨
    (∃ f, checkAccess s.par .read addr sz.bytes = .error f ∧ memRead s addr sz = .error f) := by
  unfold memRead; cases h : checkAccess s.par .read addr sz.bytes <;> simp

/-- All that `memWrite` can do. -/
theorem memWrite_cases (s : State) (addr : Word) (sz : Size) (v : Word) :
    (∃ r, checkAccess s.par .write addr sz.bytes = .ok r ∧ memWrite s addr sz v =
      .ok ((s.store addr sz.bytes v).record r (.write .thisRun addr sz.bytes (lowBytes sz.bytes v)))) ∨
    (∃ f, checkAccess s.par .write addr sz.bytes = .error f ∧ memWrite s addr sz v = .error f) := by
  unfold memWrite; cases h : checkAccess s.par .write addr sz.bytes <;> simp

/-- All that `atomicRMW` can do. -/
theorem atomicRMW_cases (s : State) (addr : Word) (sz : Size) (f : Word → Option Word) :
    (∃ r, checkAccess s.par .atomic addr sz.bytes = .ok r ∧ atomicRMW s addr sz f =
      .ok (s.valueAt r addr sz.bytes, ((s.afterRead r sz.bytes).storeNew addr sz.bytes (f (s.valueAt r addr sz.bytes))).record r
        (.atomic .thisRun addr sz.bytes (s.valueAt r addr sz.bytes) (f (s.valueAt r addr sz.bytes))))) ∨
    (∃ e, checkAccess s.par .atomic addr sz.bytes = .error e ∧ atomicRMW s addr sz f = .error e) := by
  unfold atomicRMW; cases h : checkAccess s.par .atomic addr sz.bytes <;> simp

end Sys2Proof.Machine
end

