-- ==== Sys2Proof/Laws/Access.lean ====
section
/-! SUPPORT. The terms of claims (Sys2Proof/Safety.lean) against the operations of the machine. -/

namespace Sys2Proof.Machine

/-! ### Registers -/

/-- Holding a value is what a read finds. -/
theorem holds_read {s : State} {r : Reg} {v : Word} : Holds s r v ↔ s.read r = .ok v := by
  cases r with
  | r10 => simp [Holds]
  | gpr g => exact (s.read_gpr_ok).symm

theorem read_of_holds {s : State} {r : Reg} {v : Word} (h : Holds s r v) : s.read r = .ok v := holds_read.1 h

/-- A register without a value is a fault to read. -/
theorem read_of_holdsNone {s : State} {g : GReg} (h : HoldsNone s g) : s.read (.gpr g) = .error (.uninitRegister g) :=
  (s.read_gpr_error).2 ⟨h, rfl⟩

/-- A register holds a value or none. -/
theorem holds_or_none (s : State) (g : GReg) : (∃ v, Holds s (.gpr g) v) ∨ HoldsNone s g := by
  unfold Holds HoldsNone; cases h : s.regs.get g <;> simp [h]

/-! ### Access checks -/

theorem alignChecked_false {par : Params} {kind : AccessKind} :
    alignChecked par kind = false ↔ par.alignPolicy = .allow ∧ kind ≠ .atomic := by
  cases kind <;> cases h : par.alignPolicy <;> simp [alignChecked, h]

theorem regionGrants_iff {r : Region} {kind : AccessKind} : regionGrants r kind = true ↔ Granting r kind := by
  cases kind <;> simp [regionGrants, Granting]

theorem regionCovers_iff {r : Region} {addr : Word} {n : Nat} (h : addr.toNat + n ≤ 2 ^ 64) :
    regionCovers r addr.toNat n = true ↔ Inside r addr n := by
  simp only [regionCovers, Inside, Bool.and_eq_true, decide_eq_true_eq]; omega

/-- Of regions without a byte in common, one alone holds a byte. -/
theorem Separate.unique {l : List Region} (h : l.Pairwise fun r q => r.length = 0 ∨ q.length = 0 ∨ r.base.toNat + r.length ≤ q.base.toNat ∨
      q.base.toNat + q.length ≤ r.base.toNat) {r q : Region} (hr : r ∈ l) (hq : q ∈ l) {a : Nat}
    (har : r.base.toNat ≤ a ∧ a < r.base.toNat + r.length) (haq : q.base.toNat ≤ a ∧ a < q.base.toNat + q.length) :
    r = q := by
  induction l with
  | nil => cases hr
  | cons p l ih =>
    rw [List.pairwise_cons] at h
    rcases List.mem_cons.1 hr with rfl | hr' <;> rcases List.mem_cons.1 hq with rfl | hq'
    · rfl
    · have := h.1 q hq'; omega
    · have := h.1 r hr'; omega
    · exact ih h.2 hr' hq'

/-- An access the claims call granted passes the checks, to that region. -/
theorem checkAccess_of_access {par : Params} {kind : AccessKind} {r : Region} {addr : Word} {n : Nat} (hn : 0 < n)
    (h : Access par kind r addr n) : checkAccess par kind addr n = .ok r := by
  obtain ⟨hs, hr, hi, hg, ha⟩ := h
  have hc : regionCovers r addr.toNat n = true := (regionCovers_iff hi.1).2 hi
  have hf : par.regions.find? (fun q => regionCovers q addr.toNat n && regionGrants q kind) = some r := by
    cases hq : par.regions.find? (fun q => regionCovers q addr.toNat n && regionGrants q kind) with
    | none => simpa [hc, regionGrants_iff.2 hg] using List.find?_eq_none.1 hq r hr
    | some q =>
      have hp := List.find?_some hq
      simp only [Bool.and_eq_true] at hp
      have hqi := (regionCovers_iff hi.1).1 hp.1
      rw [Separate.unique hs hr (List.mem_of_find?_eq_some hq) (a := addr.toNat)
        ⟨hi.2.1, by have := hi.2.2; omega⟩ ⟨hqi.2.1, by have := hqi.2.2; omega⟩]
  unfold checkAccess
  rw [if_neg (by have := hi.1; omega), if_neg, hf]
  rintro ⟨h1, h2⟩
  rcases ha with ha | ha
  · exact h1 ha
  · rw [alignChecked_false.2 ha] at h2; cases h2

/-- An access the claims call faulting fails the checks, with that fault. -/
theorem checkAccess_of_accessFault {par : Params} {kind : AccessKind} {addr : Word} {n : Nat} {f : FaultInfo}
    (h : AccessFault par kind addr n f) : checkAccess par kind addr n = .error f := by
  unfold checkAccess
  rcases h with ⟨h1, rfl⟩ | ⟨h1, h2, rfl⟩ | ⟨h1, h2, h3, rfl⟩
  · rw [if_pos h1]
  · rw [if_neg (by omega), if_pos]
    refine ⟨fun h => h2 (.inl h), ?_⟩
    by_contra hc
    exact h2 (.inr (alignChecked_false.1 (by simpa using hc)))
  · rw [if_neg (by omega), if_neg]
    · have : par.regions.find? (fun q => regionCovers q addr.toNat n && regionGrants q kind) = none := by
        rw [List.find?_eq_none]
        intro q hq hc
        simp only [Bool.and_eq_true] at hc
        exact h3 q hq ((regionCovers_iff h1).1 hc.1) (regionGrants_iff.1 hc.2)
      rw [this]
    · rintro ⟨h4, h5⟩
      rcases h2 with h2 | h2
      · exact h4 h2
      · rw [alignChecked_false.2 h2] at h5; cases h5

/-! ### Values and bytes -/

theorem littleValue_eq : ∀ bs : List Byte, littleValue bs = leNat bs
  | [] => rfl
  | b :: bs => by rw [littleValue, leNat, littleValue_eq bs]

theorem joinBytes_eq (e : Endian) (bs : List Byte) : joinBytes e bs = BitVec.ofNat 64 (valueOfBytes e bs) := by
  cases e <;> simp [joinBytes, valueOfBytes, littleValue_eq]

theorem drawBytes_eq : ∀ (n k : Nat), drawBytes k n = (List.range n).map fun j => Config.draw 8 (k + j)
  | 0, _ => rfl
  | n + 1, k => by
    rw [drawBytes, drawBytes_eq n, List.range_succ_eq_map, List.map_cons, List.map_map]
    congr 1
    apply List.map_congr_left
    intro j _
    simp only [Function.comp, Nat.succ_eq_add_one]
    congr 1; omega

theorem bytesAt_eq (s : State) : ∀ (n a : Nat), s.bytesAt a n = (List.range n).map fun j => s.byteAt (a + j)
  | 0, _ => rfl
  | n + 1, a => by
    rw [State.bytesAt, bytesAt_eq s n, List.range_succ_eq_map, List.map_cons, List.map_map]
    congr 1
    apply List.map_congr_left
    intro j _
    simp only [Function.comp, Nat.succ_eq_add_one]
    congr 1; omega

/-- The value an access reads is the number of the claims. -/
theorem valueAt_eq (s : State) (r : Region) (addr : Word) (n : Nat) :
    s.valueAt r addr n = BitVec.ofNat 64 (s.accessValue r addr n) := by
  unfold State.valueAt State.accessValue
  rw [joinBytes_eq]
  cases r.shared <;> simp [drawBytes_eq, bytesAt_eq]

theorem leNat_lt : ∀ bs : List Byte, leNat bs < 256 ^ bs.length
  | [] => by simp [leNat]
  | b :: bs => by
    have h1 := leNat_lt bs
    have h2 : b.toNat < 256 := b.isLt
    simp only [leNat, List.length_cons, Nat.pow_succ]
    omega

/-- An access of `n` bytes reads a number below 256 ^ n. -/
theorem accessValue_lt (s : State) (r : Region) (addr : Word) (n : Nat) : s.accessValue r addr n < 256 ^ n := by
  unfold State.accessValue valueOfBytes
  split
  · rw [littleValue_eq]; exact lt_of_lt_of_eq (leNat_lt _) (by simp)
  · rw [littleValue_eq]; exact lt_of_lt_of_eq (leNat_lt _) (by simp)

theorem getElem_leBytes : ∀ (n v k : Nat) (h : k < (leBytes n v).length), (leBytes n v)[k] = BitVec.ofNat 8 (v / 256 ^ k)
  | 0, _, _, h => by simp [leBytes] at h
  | n + 1, v, 0, _ => by simp [leBytes]
  | n + 1, v, k + 1, h => by
    simp only [leBytes, List.getElem_cons_succ]
    rw [getElem_leBytes n (v / 256) k, Nat.div_div_eq_div_mul, Nat.pow_succ, Nat.mul_comm]

/-- Storing a value leaves its bytes at the address, and every other byte as it was. -/
theorem storedAt_store (s : State) (addr : Word) (n : Nat) (v : Word) : StoredAt s (s.store addr n v) addr n v.toNat := by
  refine ⟨fun k hk => ?_, fun a h => State.byteAt_store_outside s addr n v a h⟩
  rw [State.byteAt_store_inside s addr n v k hk]
  cases h : s.par.hostEndian <;> simp [splitBytes, getElem_leBytes]

/-- A state with the same memory has stored the same. -/
theorem StoredAt.of_mem {s t u : State} {addr : Word} {n v : Nat} (h : StoredAt s t addr n v) (hm : u.mem = t.mem) :
    StoredAt s u addr n v := by
  unfold StoredAt State.byteAt at *; rw [hm]; exact h

/-- Only the low `n` bytes of the value stored count. -/
theorem StoredAt.of_mod {s t : State} {addr : Word} {n v w : Nat} (h : StoredAt s t addr n v)
    (hm : v % 256 ^ n = w % 256 ^ n) : StoredAt s t addr n w := by
  refine ⟨fun k hk => ?_, h.2⟩
  rw [h.1 k hk]
  have key : ∀ j, j < n → BitVec.ofNat 8 (v / 256 ^ j) = BitVec.ofNat 8 (w / 256 ^ j) := by
    intro j hj
    apply BitVec.eq_of_toNat_eq
    simp only [BitVec.toNat_ofNat]
    have red : ∀ x : Nat, x / 256 ^ j % 2 ^ 8 = x % 256 ^ n / 256 ^ j % 2 ^ 8 := by
      intro x
      obtain ⟨m, rfl⟩ : ∃ m, n = j + (m + 1) := ⟨n - j - 1, by omega⟩
      rw [Nat.pow_add, Nat.mod_mul_right_div_self, show 256 ^ (m + 1) = 256 ^ m * 256 from pow_succ _ _,
        show (2 : Nat) ^ 8 = 256 from rfl, Nat.mod_mul_left_mod]
    rw [red v, red w, hm]
  split <;> exact key _ (by omega)

/-! ### The invariant -/

/-- The invariant reads the memory, the parameters and the history alone. -/
theorem StateInv.of_same {s t : State} (h : StateInv s) (hm : t.mem = s.mem) (hp : t.par = s.par)
    (hh : t.history = s.history) : StateInv t :=
  ⟨by rw [hm]; exact h.1, by rw [hm, hp]; exact h.2, by rw [hh, hp]; exact h.3⟩

/-- Storing inside a region keeps the part of the invariant about memory. -/
theorem StateInv.store {s : State} {addr : Word} {n : Nat} {r : Region} (v : Word) (h : StateInv s)
    (hr : r ∈ s.par.regions) (hi : Inside r addr n) :
    (s.store addr n v).mem.wf = true ∧ ∀ c ∈ (s.store addr n v).mem, c.1 < 2 ^ 64 ∧ mapped s.par c.1 := by
  rw [State.store_mem]
  refine ⟨Memory.wf_setBytes _ _ h.1, fun c hc => ?_⟩
  rcases Memory.mem_setBytes _ hc with hc | hc
  · exact h.2 c hc
  · simp only [length_splitBytes] at hc
    obtain ⟨h1, h2, h3⟩ := hi
    exact ⟨by omega, r, hr, by omega, by omega⟩

/-! ### Called functions -/

/-- What a function may do: it writes only where it may, and its events are accesses to shared regions. -/
structure HelperRun.Within (s : State) (h : Helper) (w : HelperRun) : Prop where
  writes : ∀ c ∈ w.writes, helperMayWrite s.par h c.1 = true
  events : ∀ e ∈ w.events, e.inShared s.par

theorem helperMayWrite_iff {par : Params} {h : Helper} {a : Nat} : helperMayWrite par h a = true ↔
    a < 2 ^ 64 ∧ mapped par a ∧ ∃ p ∈ h.mayWrite, p.base.toNat ≤ a ∧ a < p.base.toNat + p.length := by
  simp only [helperMayWrite, mapped, regionCovers, spanHolds, Bool.and_eq_true, List.any_eq_true, decide_eq_true_eq,
    Nat.add_one_le_iff, and_assoc]

/-- A byte of a shared region lies in it as an access of one byte. -/
theorem sharedByte_inside {par : Params} {addr : Word} (h : sharedByte par addr.toNat = true) :
    ∃ r ∈ par.regions, r.shared = true ∧ Inside r addr 1 := by
  simp only [sharedByte, List.any_eq_true, Bool.and_eq_true] at h
  obtain ⟨r, hr, hs, hc⟩ := h
  exact ⟨r, hr, hs, (regionCovers_iff (Nat.succ_le_of_lt addr.isLt)).1 hc⟩

theorem HelperRun.Within.start (s : State) (h : Helper) (args : List Word) (k : Nat) :
    HelperRun.Within s h ⟨args, [], [], k⟩ :=
  ⟨fun _ hc => (List.not_mem_nil hc).elim, fun _ he => (List.not_mem_nil he).elim⟩

theorem HelperRun.Within.read {s : State} {h : Helper} {w : HelperRun} (addr : Word) (hw : w.Within s h) :
    (s.helperRead addr w).Within s h := by
  unfold State.helperRead
  split
  · rename_i hs
    refine ⟨hw.writes, fun e he => ?_⟩
    rcases List.mem_append.1 he with he | he
    · exact hw.events e he
    · rw [List.mem_singleton.1 he]; exact sharedByte_inside hs
  · exact ⟨hw.writes, hw.events⟩

theorem HelperRun.Within.write {s : State} {h : Helper} {w : HelperRun} (c : Host.Cell) (hw : w.Within s h) :
    (s.helperWrite h w c).Within s h := by
  unfold State.helperWrite
  split
  · rename_i hm
    refine ⟨fun d hd => ?_, fun e he => ?_⟩
    · rcases List.mem_append.1 hd with hd | hd
      · exact hw.writes d hd
      · rw [List.mem_singleton.1 hd]; exact hm
    · dsimp only at he
      split at he
      · rename_i hs
        rcases List.mem_append.1 he with he | he
        · exact hw.events e he
        · rw [List.mem_singleton.1 he]
          have hlt : (BitVec.ofNat 64 c.1).toNat = c.1 := by
            rw [BitVec.toNat_ofNat, Nat.mod_eq_of_lt (helperMayWrite_iff.1 hm).1]
          exact sharedByte_inside (addr := BitVec.ofNat 64 c.1) (by rw [hlt]; exact hs)
      · exact hw.events e he
  · exact hw

/-- A description, run from a point where the function has done only what it may, keeps to it. -/
theorem HelperRun.Within.run {s : State} {h : Helper} (code : HelperCode) : ∀ {w u : HelperRun} {ret : Word},
    w.Within s h → s.runHelper h code w = some (ret, u) → u.Within s h := by
  induction code with
  | readByte addr next ih => intro w u ret hw hr; exact ih (hw.read _) hr
  | drawValue next ih => intro w u ret hw hr; exact ih (w := w.drawValue) ⟨hw.writes, hw.events⟩ hr
  | writeByte addr value next ih => intro w u ret hw hr; exact ih (hw.write _) hr
  | test value yes no ihy ihn =>
    intro w u ret hw hr
    unfold State.runHelper at hr
    split at hr
    · exact ihy hw hr
    · exact ihn hw hr
  | returns e => intro w u ret hw hr; cases hr; exact hw
  | faults => intro w u ret hw hr; cases hr
  | free =>
    intro w u ret hw hr
    unfold State.runHelper at hr
    split at hr
    · cases hr
    · rename_i v cs _
      cases hr
      have key : ∀ (cs : List Host.Cell) (w : HelperRun), w.Within s h → (cs.foldl (s.helperWrite h) w).Within s h := by
        intro cs
        induction cs with
        | nil => exact fun _ hw => hw
        | cons c cs ih => exact fun w hw => ih _ (hw.write c)
      exact key cs _ ⟨hw.writes, hw.events⟩

/-- A called function that returns has done only what it may. -/
theorem HelperRun.Within.call {s : State} {h : Helper} {args : List Word} {ret : Word} {w : HelperRun}
    (hr : s.helperCall h args = some (ret, w)) : w.Within s h :=
  (HelperRun.Within.start s h args s.draws).run h.body hr

/-- A call that returns keeps the invariant. -/
theorem StateInv.afterHelper {s : State} {h : Helper} {w : HelperRun} (hs : StateInv s) (hw : w.Within s h) :
    StateInv (s.afterHelper w) := by
  refine ⟨Memory.wf_setCells _ hs.1, fun c hc => ?_, fun e he => ?_⟩
  · rcases Memory.mem_setCells _ hc with hc | hc
    · exact hs.2 c hc
    · have hm := helperMayWrite_iff.1 (hw.writes c hc)
      exact ⟨hm.1, hm.2.1⟩
  · rcases List.mem_append.1 he with he | he
    · exact hs.3 e he
    · exact hw.events e he

/-! ### Sizes -/

theorem AtomicSize.bytes_pos (z : AtomicSize) : 0 < z.bytes := by cases z <;> decide

theorem lowBytes_eq (n : Nat) (v : Word) : lowBytes n v = BitVec.ofNat 64 (v.toNat % 256 ^ n) := rfl

end Sys2Proof.Machine

namespace Sys2Proof

theorem Size.bytes_pos (sz : Size) : 0 < sz.bytes := by cases sz <;> decide

end Sys2Proof
end

