-- ==== Sys2Proof/Laws/Decode.lean ====
section
/-! SUPPORT. The laws of fields, registers and formats that encoding and decoding rest on. -/

namespace Sys2Proof

/-! ### Fields -/

/-- The fields of the word with some fields are those fields. -/
@[simp] theorem Fields.ofWord_toWord (f : Fields) : Fields.ofWord f.toWord = f := by
  have key : ∀ (a : BitVec 32) (b : BitVec 16) (c d : BitVec 4) (e : BitVec 8),
      (a ++ b ++ c ++ d ++ e).extractLsb' 32 32 = a ∧ (a ++ b ++ c ++ d ++ e).extractLsb' 16 16 = b ∧
      (a ++ b ++ c ++ d ++ e).extractLsb' 12 4 = c ∧ (a ++ b ++ c ++ d ++ e).extractLsb' 8 4 = d ∧
      (a ++ b ++ c ++ d ++ e).extractLsb' 0 8 = e := by
    intro a b c d e
    have ha := a.isLt; have hb := b.isLt; have hc := c.isLt; have hd := d.isLt; have he := e.isLt
    refine ⟨?_, ?_, ?_, ?_, ?_⟩ <;> apply BitVec.eq_of_toNat_eq <;>
      simp only [BitVec.extractLsb'_toNat, BitVec.toNat_append, Nat.shiftRight_eq_div_pow, Nat.shiftLeft_eq,
        ← Nat.two_pow_add_eq_or_of_lt, hb, hc, hd, he, Nat.mul_comm _ (2 ^ _)] <;> omega
  obtain ⟨a, b, c, d, e⟩ := f
  obtain ⟨h1, h2, h3, h4, h5⟩ := key a b c d e
  simp only [Fields.ofWord, Fields.toWord, h1, h2, h3, h4, h5]

/-- A word is the word with its fields. -/
@[simp] theorem Fields.toWord_ofWord (w : Word) : (Fields.ofWord w).toWord = w := by
  have hw := w.isLt
  apply BitVec.eq_of_toNat_eq
  simp only [Fields.ofWord, Fields.toWord, BitVec.extractLsb'_toNat, BitVec.toNat_append, Nat.shiftRight_eq_div_pow]
  have add : ∀ a b n : Nat, b < 2 ^ n → a <<< n ||| b = a * 2 ^ n + b := fun a b n h => by
    rw [← Nat.shiftLeft_add_eq_or_of_lt h, Nat.shiftLeft_eq]
  rw [add _ _ 16 (by omega), add _ _ 4 (by omega), add _ _ 4 (by omega), add _ _ 8 (by omega)]
  omega

/-! ### Registers -/

@[simp] theorem regOfField_gregField (g : GReg) : regOfField (gregField g) = some (.gpr g) := by
  cases g <;> rfl

@[simp] theorem regOfField_regField (r : Reg) : regOfField (regField r) = some r := by
  cases r with
  | r10 => rfl
  | gpr g => exact regOfField_gregField g

/-- A field names a register exactly from 0 to 10, and the register's field is that field. -/
theorem regField_of_regOfField {b : BitVec 4} {r : Reg} (h : regOfField b = some r) : regField r = b ∧ b.toNat ≤ 10 := by
  have : ∀ b : BitVec 4, ∀ r, regOfField b = some r → regField r = b ∧ b.toNat ≤ 10 := by decide +revert
  exact this b r h

theorem regOfField_none {b : BitVec 4} : regOfField b = none ↔ 10 < b.toNat := by
  have : ∀ b : BitVec 4, regOfField b = none ↔ 10 < b.toNat := by decide
  exact this b

/-- Field 10 is the frame pointer, and no other is. -/
theorem regOfField_r10 {b : BitVec 4} : regOfField b = some .r10 ↔ b = 10 := by
  have : ∀ b : BitVec 4, regOfField b = some .r10 ↔ b = 10 := by decide
  exact this b

/-! ### The parts of a format decoder -/

@[simp] theorem mustBeZero_true (k : Decoded) : mustBeZero true k = k := rfl

@[simp] theorem mustBeZero_false (k : Decoded) : mustBeZero false k = .error .nonzeroUnusedField := rfl

theorem mustBeZero_ok {z : Bool} {k : Decoded} {i : Instr} : mustBeZero z k = .ok i ↔ z = true ∧ k = .ok i := by
  cases z <;> simp [mustBeZero]

@[simp] theorem usedReg_gregField (g : GReg) (k : Reg → Decoded) : usedReg (gregField g) k = k (.gpr g) := by
  simp [usedReg]

@[simp] theorem usedReg_regField (r : Reg) (k : Reg → Decoded) : usedReg (regField r) k = k r := by
  simp [usedReg]

theorem usedReg_ok {b : BitVec 4} {k : Reg → Decoded} {i : Instr} :
    usedReg b k = .ok i ↔ ∃ r, b = regField r ∧ k r = .ok i := by
  unfold usedReg
  cases h : regOfField b with
  | none => simp only [reduceCtorEq, false_iff]; rintro ⟨r, rfl, _⟩; simp at h
  | some r =>
    simp only
    constructor
    · exact fun hk => ⟨r, (regField_of_regOfField h).1.symm, hk⟩
    · rintro ⟨q, rfl, hk⟩; simp at h; subst h; exact hk

@[simp] theorem writtenReg_gpr (g : GReg) (k : GReg → Decoded) : writtenReg (.gpr g) k = k g := rfl

theorem writtenReg_ok {r : Reg} {k : GReg → Decoded} {i : Instr} :
    writtenReg r k = .ok i ↔ ∃ g, r = .gpr g ∧ k g = .ok i := by
  cases r <;> simp [writtenReg]

end Sys2Proof
end

