-- ==== Sys2Proof/Laws/Ops.lean ====
section
/-! SUPPORT. One lemma per shared operation that says all it can do. `x_ok` is its result where its reads succeed;
`x_error` the fault of its first read that does not. -/

namespace Sys2Proof.Machine

/-! ### Register operations -/

theorem alu32K_ok (f : BitVec 32 → BitVec 32 → BitVec 32) (dst : GReg) (imm : BitVec 32) {s : State} {d : Word}
    (h : s.read (.gpr dst) = .ok d) : alu32K f dst imm s =
    .next ((s.put dst (zext64 (f (low32 d) imm))).advance) := by
  unfold alu32K; rw [h]; rfl

theorem alu32K_error (f : BitVec 32 → BitVec 32 → BitVec 32) (dst : GReg) (imm : BitVec 32) {s : State} {e : FaultInfo}
    (h : s.read (.gpr dst) = .error e) : alu32K f dst imm s = .next { s with out := .faulted e } := by
  unfold alu32K; rw [h]; rfl

theorem alu64K_ok (f : Word → Word → Word) (dst : GReg) (imm : BitVec 32) {s : State} {d : Word}
    (h : s.read (.gpr dst) = .ok d) : alu64K f dst imm s =
    .next ((s.put dst (f d (immOperand imm))).advance) := by
  unfold alu64K; rw [h]; rfl

theorem alu64K_error (f : Word → Word → Word) (dst : GReg) (imm : BitVec 32) {s : State} {e : FaultInfo}
    (h : s.read (.gpr dst) = .error e) : alu64K f dst imm s = .next { s with out := .faulted e } := by
  unfold alu64K; rw [h]; rfl

theorem shift32K_ok (op : BitVec 32 → Nat → BitVec 32) (dst : GReg) (imm : BitVec 32) {s : State} {d : Word}
    (h : s.read (.gpr dst) = .ok d) : shift32K op dst imm s =
    .next (((s.afterResult (shiftOp 32 op s.par.shiftPolicy (low32 d) imm.toNat)).put dst
      (zext64 (s.resultOr (shiftOp 32 op s.par.shiftPolicy (low32 d) imm.toNat)))).advance) := by
  unfold shift32K; rw [h]; rfl

theorem shift32K_error (op : BitVec 32 → Nat → BitVec 32) (dst : GReg) (imm : BitVec 32) {s : State} {e : FaultInfo}
    (h : s.read (.gpr dst) = .error e) : shift32K op dst imm s = .next { s with out := .faulted e } := by
  unfold shift32K; rw [h]; rfl

theorem shift64K_ok (op : Word → Nat → Word) (dst : GReg) (imm : BitVec 32) {s : State} {d : Word}
    (h : s.read (.gpr dst) = .ok d) : shift64K op dst imm s =
    .next (((s.afterResult (shiftOp 64 op s.par.shiftPolicy d (immOperand imm).toNat)).put dst
      (s.resultOr (shiftOp 64 op s.par.shiftPolicy d (immOperand imm).toNat))).advance) := by
  unfold shift64K; rw [h]; rfl

theorem shift64K_error (op : Word → Nat → Word) (dst : GReg) (imm : BitVec 32) {s : State} {e : FaultInfo}
    (h : s.read (.gpr dst) = .error e) : shift64K op dst imm s = .next { s with out := .faulted e } := by
  unfold shift64K; rw [h]; rfl

theorem writeX_ok (f : Word → Word) (dst : GReg) (src : Reg) {s : State} {d : Word}
    (h : s.read src = .ok d) : writeX f dst src s =
    .next ((s.put dst (f d)).advance) := by
  unfold writeX; rw [h]; rfl

theorem writeX_error (f : Word → Word) (dst : GReg) (src : Reg) {s : State} {e : FaultInfo}
    (h : s.read src = .error e) : writeX f dst src s = .next { s with out := .faulted e } := by
  unfold writeX; rw [h]; rfl

theorem jump64K_ok (c : Word → Word → Bool) (dst : Reg) (imm : BitVec 32) (off : BitVec 16) {s : State} {d : Word}
    (h : s.read dst = .ok d) : jump64K c dst imm off s =
    .next (s.branch (c d (immOperand imm)) off) := by
  unfold jump64K; rw [h]; rfl

theorem jump64K_error (c : Word → Word → Bool) (dst : Reg) (imm : BitVec 32) (off : BitVec 16) {s : State} {e : FaultInfo}
    (h : s.read dst = .error e) : jump64K c dst imm off s = .next { s with out := .faulted e } := by
  unfold jump64K; rw [h]; rfl

theorem jump32K_ok (c : BitVec 32 → BitVec 32 → Bool) (dst : Reg) (imm : BitVec 32) (off : BitVec 16) {s : State} {d : Word}
    (h : s.read dst = .ok d) : jump32K c dst imm off s =
    .next (s.branch (c (low32 d) imm) off) := by
  unfold jump32K; rw [h]; rfl

theorem jump32K_error (c : BitVec 32 → BitVec 32 → Bool) (dst : Reg) (imm : BitVec 32) (off : BitVec 16) {s : State} {e : FaultInfo}
    (h : s.read dst = .error e) : jump32K c dst imm off s = .next { s with out := .faulted e } := by
  unfold jump32K; rw [h]; rfl

theorem alu32X_ok (f : BitVec 32 → BitVec 32 → BitVec 32) (dst : GReg) (src : Reg) {s : State} {d v : Word}
    (h : s.read (.gpr dst) = .ok d) (h' : s.read src = .ok v) : alu32X f dst src s =
    .next ((s.put dst (zext64 (f (low32 d) (low32 v)))).advance) := by
  unfold alu32X; rw [h, h']; rfl

theorem alu32X_error (f : BitVec 32 → BitVec 32 → BitVec 32) (dst : GReg) (src : Reg) {s : State} {e : FaultInfo}
    (h : s.read (.gpr dst) = .error e ∨ ∃ d, s.read (.gpr dst) = .ok d ∧ s.read src = .error e) :
    alu32X f dst src s = .next { s with out := .faulted e } := by
  unfold alu32X; rcases h with h | ⟨d, h, h'⟩
  · rw [h]; rfl
  · rw [h, h']; rfl

theorem alu64X_ok (f : Word → Word → Word) (dst : GReg) (src : Reg) {s : State} {d v : Word}
    (h : s.read (.gpr dst) = .ok d) (h' : s.read src = .ok v) : alu64X f dst src s =
    .next ((s.put dst (f d v)).advance) := by
  unfold alu64X; rw [h, h']; rfl

theorem alu64X_error (f : Word → Word → Word) (dst : GReg) (src : Reg) {s : State} {e : FaultInfo}
    (h : s.read (.gpr dst) = .error e ∨ ∃ d, s.read (.gpr dst) = .ok d ∧ s.read src = .error e) :
    alu64X f dst src s = .next { s with out := .faulted e } := by
  unfold alu64X; rcases h with h | ⟨d, h, h'⟩
  · rw [h]; rfl
  · rw [h, h']; rfl

theorem shift32X_ok (op : BitVec 32 → Nat → BitVec 32) (dst : GReg) (src : Reg) {s : State} {d v : Word}
    (h : s.read (.gpr dst) = .ok d) (h' : s.read src = .ok v) : shift32X op dst src s =
    .next (((s.afterResult (shiftOp 32 op s.par.shiftPolicy (low32 d) (low32 v).toNat)).put dst
      (zext64 (s.resultOr (shiftOp 32 op s.par.shiftPolicy (low32 d) (low32 v).toNat)))).advance) := by
  unfold shift32X; rw [h, h']; rfl

theorem shift32X_error (op : BitVec 32 → Nat → BitVec 32) (dst : GReg) (src : Reg) {s : State} {e : FaultInfo}
    (h : s.read (.gpr dst) = .error e ∨ ∃ d, s.read (.gpr dst) = .ok d ∧ s.read src = .error e) :
    shift32X op dst src s = .next { s with out := .faulted e } := by
  unfold shift32X; rcases h with h | ⟨d, h, h'⟩
  · rw [h]; rfl
  · rw [h, h']; rfl

theorem shift64X_ok (op : Word → Nat → Word) (dst : GReg) (src : Reg) {s : State} {d v : Word}
    (h : s.read (.gpr dst) = .ok d) (h' : s.read src = .ok v) : shift64X op dst src s =
    .next (((s.afterResult (shiftOp 64 op s.par.shiftPolicy d v.toNat)).put dst
      (s.resultOr (shiftOp 64 op s.par.shiftPolicy d v.toNat))).advance) := by
  unfold shift64X; rw [h, h']; rfl

theorem shift64X_error (op : Word → Nat → Word) (dst : GReg) (src : Reg) {s : State} {e : FaultInfo}
    (h : s.read (.gpr dst) = .error e ∨ ∃ d, s.read (.gpr dst) = .ok d ∧ s.read src = .error e) :
    shift64X op dst src s = .next { s with out := .faulted e } := by
  unfold shift64X; rcases h with h | ⟨d, h, h'⟩
  · rw [h]; rfl
  · rw [h, h']; rfl

theorem jump64X_ok (c : Word → Word → Bool) (dst src : Reg) (off : BitVec 16) {s : State} {d v : Word}
    (h : s.read dst = .ok d) (h' : s.read src = .ok v) : jump64X c dst src off s =
    .next (s.branch (c d v) off) := by
  unfold jump64X; rw [h, h']; rfl

theorem jump64X_error (c : Word → Word → Bool) (dst src : Reg) (off : BitVec 16) {s : State} {e : FaultInfo}
    (h : s.read dst = .error e ∨ ∃ d, s.read dst = .ok d ∧ s.read src = .error e) :
    jump64X c dst src off s = .next { s with out := .faulted e } := by
  unfold jump64X; rcases h with h | ⟨d, h, h'⟩
  · rw [h]; rfl
  · rw [h, h']; rfl

theorem jump32X_ok (c : BitVec 32 → BitVec 32 → Bool) (dst src : Reg) (off : BitVec 16) {s : State} {d v : Word}
    (h : s.read dst = .ok d) (h' : s.read src = .ok v) : jump32X c dst src off s =
    .next (s.branch (c (low32 d) (low32 v)) off) := by
  unfold jump32X; rw [h, h']; rfl

theorem jump32X_error (c : BitVec 32 → BitVec 32 → Bool) (dst src : Reg) (off : BitVec 16) {s : State} {e : FaultInfo}
    (h : s.read dst = .error e ∨ ∃ d, s.read dst = .ok d ∧ s.read src = .error e) :
    jump32X c dst src off s = .next { s with out := .faulted e } := by
  unfold jump32X; rcases h with h | ⟨d, h, h'⟩
  · rw [h]; rfl
  · rw [h, h']; rfl

theorem writeK_eq (f : BitVec 32 → Word) (dst : GReg) (imm : BitVec 32) (s : State) :
    writeK f dst imm s = .next (s.put dst (f imm)).advance := rfl

/-! ### Memory operations -/

theorem loadReg_ok (sz : Size) (dst : GReg) {src : Reg} {off : BitVec 16} {s : State} {base : Word} {r : Region}
    (h : s.read src = .ok base) (hc : checkAccess s.par .read (effAddr base off) sz.bytes = .ok r) :
    loadReg sz dst src off s = .next ((((s.afterRead r sz.bytes).record r
      (.read .thisRun (effAddr base off) sz.bytes (s.valueAt r (effAddr base off) sz.bytes))).put dst
        (s.valueAt r (effAddr base off) sz.bytes)).advance) := by
  unfold loadReg memRead; rw [h]; simp only [bind, Except.bind, hc]; rfl

theorem loadReg_error (sz : Size) (dst : GReg) {src : Reg} {off : BitVec 16} {s : State} {e : FaultInfo}
    (h : s.read src = .error e ∨ ∃ base, s.read src = .ok base ∧
      checkAccess s.par .read (effAddr base off) sz.bytes = .error e) :
    loadReg sz dst src off s = .next { s with out := .faulted e } := by
  unfold loadReg memRead; rcases h with h | ⟨base, h, hc⟩
  · rw [h]; rfl
  · rw [h]; simp only [bind, Except.bind, hc]; rfl

theorem storeReg_ok (sz : Size) {dst src : Reg} {off : BitVec 16} {s : State} {base v : Word} {r : Region}
    (h : s.read dst = .ok base) (h' : s.read src = .ok v)
    (hc : checkAccess s.par .write (effAddr base off) sz.bytes = .ok r) :
    storeReg sz dst src off s = .next ((s.store (effAddr base off) sz.bytes v).record r
      (.write .thisRun (effAddr base off) sz.bytes (lowBytes sz.bytes v))).advance := by
  unfold storeReg memWrite; rw [h]; simp only [bind, Except.bind, h', hc]; rfl

theorem storeReg_error (sz : Size) {dst src : Reg} {off : BitVec 16} {s : State} {e : FaultInfo}
    (h : s.read dst = .error e ∨ ∃ base, s.read dst = .ok base ∧ (s.read src = .error e ∨
      ∃ v, s.read src = .ok v ∧ checkAccess s.par .write (effAddr base off) sz.bytes = .error e)) :
    storeReg sz dst src off s = .next { s with out := .faulted e } := by
  unfold storeReg memWrite; rcases h with h | ⟨base, h, h' | ⟨v, h', hc⟩⟩
  · rw [h]; rfl
  · rw [h]; simp only [bind, Except.bind, h']; rfl
  · rw [h]; simp only [bind, Except.bind, h', hc]; rfl

theorem storeImm_ok (sz : Size) {dst : Reg} {off : BitVec 16} (imm : BitVec 32) {s : State} {base : Word} {r : Region}
    (h : s.read dst = .ok base) (hc : checkAccess s.par .write (effAddr base off) sz.bytes = .ok r) :
    storeImm sz dst off imm s = .next ((s.store (effAddr base off) sz.bytes (immOperand imm)).record r
      (.write .thisRun (effAddr base off) sz.bytes (lowBytes sz.bytes (immOperand imm)))).advance := by
  unfold storeImm memWrite; rw [h]; simp only [bind, Except.bind, hc]; rfl

theorem storeImm_error (sz : Size) {dst : Reg} {off : BitVec 16} (imm : BitVec 32) {s : State} {e : FaultInfo}
    (h : s.read dst = .error e ∨ ∃ base, s.read dst = .ok base ∧
      checkAccess s.par .write (effAddr base off) sz.bytes = .error e) :
    storeImm sz dst off imm s = .next { s with out := .faulted e } := by
  unfold storeImm memWrite; rcases h with h | ⟨base, h, hc⟩
  · rw [h]; rfl
  · rw [h]; simp only [bind, Except.bind, hc]; rfl

/-! ### Atomic operations -/

/-- The state an atomic operation leaves before its result register and the program counter are written. -/
def State.rmwState (s : State) (r : Region) (addr : Word) (n : Nat) (new : Option Word) : State :=
  ((s.afterRead r n).storeNew addr n new).record r (.atomic .thisRun addr n (s.valueAt r addr n) new)

theorem atomicPlain_ok (sz : Size) (f : Word → Word → Word) {dst src : Reg} {off : BitVec 16} {s : State} {base v : Word}
    {r : Region} (h : s.read dst = .ok base) (h' : s.read src = .ok v)
    (hc : checkAccess s.par .atomic (effAddr base off) sz.bytes = .ok r) :
    atomicPlain sz f dst src off s = .next (s.rmwState r (effAddr base off) sz.bytes
      (some (f (s.valueAt r (effAddr base off) sz.bytes) v))).advance := by
  unfold atomicPlain atomicRMW; rw [h]; simp only [bind, Except.bind, h', hc]; rfl

theorem atomicPlain_error (sz : Size) (f : Word → Word → Word) {dst src : Reg} {off : BitVec 16} {s : State} {e : FaultInfo}
    (h : s.read dst = .error e ∨ ∃ base, s.read dst = .ok base ∧ (s.read src = .error e ∨
      ∃ v, s.read src = .ok v ∧ checkAccess s.par .atomic (effAddr base off) sz.bytes = .error e)) :
    atomicPlain sz f dst src off s = .next { s with out := .faulted e } := by
  unfold atomicPlain atomicRMW; rcases h with h | ⟨base, h, h' | ⟨v, h', hc⟩⟩
  · rw [h]; rfl
  · rw [h]; simp only [bind, Except.bind, h']; rfl
  · rw [h]; simp only [bind, Except.bind, h', hc]; rfl

theorem atomicFetch_ok (sz : Size) (f : Word → Word → Word) {dst : Reg} {src : GReg} {off : BitVec 16} {s : State}
    {base v : Word} {r : Region} (h : s.read dst = .ok base) (h' : s.read (.gpr src) = .ok v)
    (hc : checkAccess s.par .atomic (effAddr base off) sz.bytes = .ok r) :
    atomicFetch sz f dst src off s = .next (((s.rmwState r (effAddr base off) sz.bytes
      (some (f (s.valueAt r (effAddr base off) sz.bytes) v))).put src (s.valueAt r (effAddr base off) sz.bytes)).advance) := by
  unfold atomicFetch atomicRMW; rw [h]; simp only [bind, Except.bind, h', hc]; rfl

theorem atomicFetch_error (sz : Size) (f : Word → Word → Word) {dst : Reg} {src : GReg} {off : BitVec 16} {s : State}
    {e : FaultInfo}
    (h : s.read dst = .error e ∨ ∃ base, s.read dst = .ok base ∧ (s.read (.gpr src) = .error e ∨
      ∃ v, s.read (.gpr src) = .ok v ∧ checkAccess s.par .atomic (effAddr base off) sz.bytes = .error e)) :
    atomicFetch sz f dst src off s = .next { s with out := .faulted e } := by
  unfold atomicFetch atomicRMW; rcases h with h | ⟨base, h, h' | ⟨v, h', hc⟩⟩
  · rw [h]; rfl
  · rw [h]; simp only [bind, Except.bind, h']; rfl
  · rw [h]; simp only [bind, Except.bind, h', hc]; rfl

theorem atomicCmpxchg_ok (sz : Size) {dst src : Reg} {off : BitVec 16} {s : State} {base v c : Word} {r : Region}
    (h : s.read dst = .ok base) (h' : s.read src = .ok v) (h0 : s.read (.gpr .r0) = .ok c)
    (hc : checkAccess s.par .atomic (effAddr base off) sz.bytes = .ok r) :
    atomicCmpxchg sz dst src off s = .next (((s.rmwState r (effAddr base off) sz.bytes
      (if s.valueAt r (effAddr base off) sz.bytes = lowBytes sz.bytes c then some (lowBytes sz.bytes v) else none)).put .r0
        (s.valueAt r (effAddr base off) sz.bytes)).advance) := by
  unfold atomicCmpxchg atomicRMW; rw [h]; simp only [bind, Except.bind, h', h0, hc]; rfl

theorem atomicCmpxchg_error (sz : Size) {dst src : Reg} {off : BitVec 16} {s : State} {e : FaultInfo}
    (h : s.read dst = .error e ∨ ∃ base, s.read dst = .ok base ∧ (s.read src = .error e ∨
      ∃ v, s.read src = .ok v ∧ (s.read (.gpr .r0) = .error e ∨ ∃ c, s.read (.gpr .r0) = .ok c ∧
        checkAccess s.par .atomic (effAddr base off) sz.bytes = .error e))) :
    atomicCmpxchg sz dst src off s = .next { s with out := .faulted e } := by
  unfold atomicCmpxchg atomicRMW; rcases h with h | ⟨base, h, h' | ⟨v, h', h0 | ⟨c, h0, hc⟩⟩⟩
  · rw [h]; rfl
  · rw [h]; simp only [bind, Except.bind, h']; rfl
  · rw [h]; simp only [bind, Except.bind, h', h0]; rfl
  · rw [h]; simp only [bind, Except.bind, h', h0, hc]; rfl

/-! ### Call and exit -/

theorem callFunction_ok {imm : BitVec 32} {s : State} {h : Helper} {args : List Word} {ret : Word} {w : HelperRun}
    (hf : findHelper s.par imm = some h) (ha : s.readAll (argRegs.take h.nargs.val) = .ok args)
    (hr : s.helperCall h args = some (ret, w)) :
    callFunction imm s = .next (((s.afterHelper w).put .r0 ret).dropArgs).advance := by
  unfold callFunction; rw [hf]; simp only [bind, Except.bind, ha, hr]; rfl

/-- The three ways a call faults. -/
theorem callFunction_error {imm : BitVec 32} {s : State} {e : FaultInfo}
    (h : (findHelper s.par imm = none ∧ e = .unknownFunction imm) ∨
      ∃ h, findHelper s.par imm = some h ∧ (s.readAll (argRegs.take h.nargs.val) = .error e ∨
        ∃ args, s.readAll (argRegs.take h.nargs.val) = .ok args ∧ s.helperCall h args = none ∧ e = .helperFault imm)) :
    callFunction imm s = .next { s with out := .faulted e } := by
  unfold callFunction; rcases h with ⟨h, rfl⟩ | ⟨h, hf, ha | ⟨args, ha, hr, rfl⟩⟩
  · rw [h]; rfl
  · rw [hf]; simp only [bind, Except.bind, ha]; rfl
  · rw [hf]; simp only [bind, Except.bind, ha, hr]; rfl

/-- A call does one of the two. -/
theorem callFunction_cases (imm : BitVec 32) (s : State) :
    (∃ h args ret w, findHelper s.par imm = some h ∧ s.readAll (argRegs.take h.nargs.val) = .ok args ∧
      s.helperCall h args = some (ret, w)) ∨
    ∃ e, (findHelper s.par imm = none ∧ e = .unknownFunction imm) ∨
      ∃ h, findHelper s.par imm = some h ∧ (s.readAll (argRegs.take h.nargs.val) = .error e ∨
        ∃ args, s.readAll (argRegs.take h.nargs.val) = .ok args ∧ s.helperCall h args = none ∧ e = .helperFault imm) := by
  cases hf : findHelper s.par imm with
  | none => exact .inr ⟨_, .inl ⟨rfl, rfl⟩⟩
  | some h =>
    cases ha : s.readAll (argRegs.take h.nargs.val) with
    | error e => exact .inr ⟨e, .inr ⟨h, rfl, .inl ha⟩⟩
    | ok args =>
      cases hr : s.helperCall h args with
      | none => exact .inr ⟨_, .inr ⟨h, rfl, .inr ⟨args, ha, hr, rfl⟩⟩⟩
      | some r => exact .inl ⟨h, args, r.1, r.2, rfl, ha, hr⟩

theorem exitProgram_ok {s : State} {v : Word} (h : s.read (.gpr .r0) = .ok v) :
    exitProgram s = .next { s with out := .exited v } := by
  unfold exitProgram; rw [h]; rfl

theorem exitProgram_error {s : State} {e : FaultInfo} (h : s.read (.gpr .r0) = .error e) :
    exitProgram s = .next { s with out := .faulted e } := by
  unfold exitProgram; rw [h]; rfl

/-! ### Fetching -/

theorem setSlot_get : ∀ (ps : List Word) (k : Nat) (w : Word), (setSlot ps k w)[k]? = some w
  | [], 0, _ => rfl
  | [], k + 1, w => by rw [setSlot, List.getElem?_cons_succ]; exact setSlot_get [] k w
  | _ :: _, 0, _ => rfl
  | p :: ps, k + 1, w => by rw [setSlot, List.getElem?_cons_succ]; exact setSlot_get ps k w

theorem setSlot_get_ne : ∀ (ps : List Word) (k j : Nat) (w : Word), j < k → (setSlot ps k w)[j]? = some (ps[j]?.getD 0)
  | [], 0, _, _, h => by omega
  | [], k + 1, 0, _, _ => rfl
  | [], k + 1, j + 1, w, h => by
    rw [setSlot, List.getElem?_cons_succ, setSlot_get_ne [] k j w (by omega)]; simp
  | _ :: _, 0, _, _, h => by omega
  | _ :: _, k + 1, 0, _, _ => rfl
  | p :: ps, k + 1, j + 1, w, h => by
    rw [setSlot, List.getElem?_cons_succ, setSlot_get_ne ps k j w (by omega)]; simp

/-- Fetching finds the words of the program text from `pc` on. -/
theorem fetch_eq {s : State} (h : 0 ≤ s.pc) :
    fetch s = match s.par.program.drop s.pc.toNat with | [] => none | w :: ws => some (w, ws.head?) := by
  unfold fetch
  rw [if_pos h]
  have h0 : (s.par.program.drop s.pc.toNat)[0]? = s.par.program[s.pc.toNat]? := by simp
  have h1 : (s.par.program.drop s.pc.toNat)[1]? = s.par.program[s.pc.toNat + 1]? := by simp
  rw [← h0, ← h1]
  cases hd : s.par.program.drop s.pc.toNat with
  | nil => simp
  | cons w ws => cases ws <;> simp

theorem fetch_none {s : State} : fetch s = none ↔ s.pc < 0 ∨ (s.par.program.length : Int) ≤ s.pc := by
  unfold fetch
  split
  · rename_i h
    cases hd : s.par.program[s.pc.toNat]? with
    | none => rw [List.getElem?_eq_none_iff] at hd; simp; omega
    | some w =>
      have := (List.getElem?_eq_some_iff.1 hd).1
      simp; omega
  · simp; omega

end Sys2Proof.Machine
end

