-- ==== Sys2Proof/Laws/PerInstr.lean ====
section
/-! SUPPORT. A fact about every instruction as syntax: its first word matches its row of spec/opcode_table.json. -/

namespace Sys2Proof.Laws.EncodingMatchesTable

/-- The mask and the match of an instruction's row in spec/opcode_table.json (30_encoding.md rule R79). -/
def row : Instr → Word × Word
  | .add32K _ _ => (0x00000000FFFFF0FF, 0x0000000000000004)
  | .add32X _ _ => (0xFFFFFFFFFFFF00FF, 0x000000000000000C)
  | .add64K _ _ => (0x00000000FFFFF0FF, 0x0000000000000007)
  | .add64X _ _ => (0xFFFFFFFFFFFF00FF, 0x000000000000000F)
  | .sub32K _ _ => (0x00000000FFFFF0FF, 0x0000000000000014)
  | .sub32X _ _ => (0xFFFFFFFFFFFF00FF, 0x000000000000001C)
  | .sub64K _ _ => (0x00000000FFFFF0FF, 0x0000000000000017)
  | .sub64X _ _ => (0xFFFFFFFFFFFF00FF, 0x000000000000001F)
  | .mul32K _ _ => (0x00000000FFFFF0FF, 0x0000000000000024)
  | .mul32X _ _ => (0xFFFFFFFFFFFF00FF, 0x000000000000002C)
  | .mul64K _ _ => (0x00000000FFFFF0FF, 0x0000000000000027)
  | .mul64X _ _ => (0xFFFFFFFFFFFF00FF, 0x000000000000002F)
  | .div32K _ _ => (0x00000000FFFFF0FF, 0x0000000000000034)
  | .div32X _ _ => (0xFFFFFFFFFFFF00FF, 0x000000000000003C)
  | .div64K _ _ => (0x00000000FFFFF0FF, 0x0000000000000037)
  | .div64X _ _ => (0xFFFFFFFFFFFF00FF, 0x000000000000003F)
  | .or32K _ _ => (0x00000000FFFFF0FF, 0x0000000000000044)
  | .or32X _ _ => (0xFFFFFFFFFFFF00FF, 0x000000000000004C)
  | .or64K _ _ => (0x00000000FFFFF0FF, 0x0000000000000047)
  | .or64X _ _ => (0xFFFFFFFFFFFF00FF, 0x000000000000004F)
  | .and32K _ _ => (0x00000000FFFFF0FF, 0x0000000000000054)
  | .and32X _ _ => (0xFFFFFFFFFFFF00FF, 0x000000000000005C)
  | .and64K _ _ => (0x00000000FFFFF0FF, 0x0000000000000057)
  | .and64X _ _ => (0xFFFFFFFFFFFF00FF, 0x000000000000005F)
  | .lsh32K _ _ => (0x00000000FFFFF0FF, 0x0000000000000064)
  | .lsh32X _ _ => (0xFFFFFFFFFFFF00FF, 0x000000000000006C)
  | .lsh64K _ _ => (0x00000000FFFFF0FF, 0x0000000000000067)
  | .lsh64X _ _ => (0xFFFFFFFFFFFF00FF, 0x000000000000006F)
  | .rsh32K _ _ => (0x00000000FFFFF0FF, 0x0000000000000074)
  | .rsh32X _ _ => (0xFFFFFFFFFFFF00FF, 0x000000000000007C)
  | .rsh64K _ _ => (0x00000000FFFFF0FF, 0x0000000000000077)
  | .rsh64X _ _ => (0xFFFFFFFFFFFF00FF, 0x000000000000007F)
  | .neg32K _ _ => (0x00000000FFFFF0FF, 0x0000000000000084)
  | .neg32X _ _ => (0xFFFFFFFFFFFF00FF, 0x000000000000008C)
  | .neg64K _ _ => (0x00000000FFFFF0FF, 0x0000000000000087)
  | .neg64X _ _ => (0xFFFFFFFFFFFF00FF, 0x000000000000008F)
  | .mod32K _ _ => (0x00000000FFFFF0FF, 0x0000000000000094)
  | .mod32X _ _ => (0xFFFFFFFFFFFF00FF, 0x000000000000009C)
  | .mod64K _ _ => (0x00000000FFFFF0FF, 0x0000000000000097)
  | .mod64X _ _ => (0xFFFFFFFFFFFF00FF, 0x000000000000009F)
  | .xor32K _ _ => (0x00000000FFFFF0FF, 0x00000000000000A4)
  | .xor32X _ _ => (0xFFFFFFFFFFFF00FF, 0x00000000000000AC)
  | .xor64K _ _ => (0x00000000FFFFF0FF, 0x00000000000000A7)
  | .xor64X _ _ => (0xFFFFFFFFFFFF00FF, 0x00000000000000AF)
  | .mov32K _ _ => (0x00000000FFFFF0FF, 0x00000000000000B4)
  | .mov32X _ _ => (0xFFFFFFFFFFFF00FF, 0x00000000000000BC)
  | .mov64K _ _ => (0x00000000FFFFF0FF, 0x00000000000000B7)
  | .mov64X _ _ => (0xFFFFFFFFFFFF00FF, 0x00000000000000BF)
  | .arsh32K _ _ => (0x00000000FFFFF0FF, 0x00000000000000C4)
  | .arsh32X _ _ => (0xFFFFFFFFFFFF00FF, 0x00000000000000CC)
  | .arsh64K _ _ => (0x00000000FFFFF0FF, 0x00000000000000C7)
  | .arsh64X _ _ => (0xFFFFFFFFFFFF00FF, 0x00000000000000CF)
  | .le16 _ => (0xFFFFFFFFFFFFF0FF, 0x00000010000000D4)
  | .le32 _ => (0xFFFFFFFFFFFFF0FF, 0x00000020000000D4)
  | .le64 _ => (0xFFFFFFFFFFFFF0FF, 0x00000040000000D4)
  | .be16 _ => (0xFFFFFFFFFFFFF0FF, 0x00000010000000DC)
  | .be32 _ => (0xFFFFFFFFFFFFF0FF, 0x00000020000000DC)
  | .be64 _ => (0xFFFFFFFFFFFFF0FF, 0x00000040000000DC)
  | .ja _ => (0xFFFFFFFF0000FFFF, 0x0000000000000005)
  | .jeqK _ _ _ => (0x000000000000F0FF, 0x0000000000000015)
  | .jeqX _ _ _ => (0xFFFFFFFF000000FF, 0x000000000000001D)
  | .jeq32K _ _ _ => (0x000000000000F0FF, 0x0000000000000016)
  | .jeq32X _ _ _ => (0xFFFFFFFF000000FF, 0x000000000000001E)
  | .jgtK _ _ _ => (0x000000000000F0FF, 0x0000000000000025)
  | .jgtX _ _ _ => (0xFFFFFFFF000000FF, 0x000000000000002D)
  | .jgt32K _ _ _ => (0x000000000000F0FF, 0x0000000000000026)
  | .jgt32X _ _ _ => (0xFFFFFFFF000000FF, 0x000000000000002E)
  | .jgeK _ _ _ => (0x000000000000F0FF, 0x0000000000000035)
  | .jgeX _ _ _ => (0xFFFFFFFF000000FF, 0x000000000000003D)
  | .jge32K _ _ _ => (0x000000000000F0FF, 0x0000000000000036)
  | .jge32X _ _ _ => (0xFFFFFFFF000000FF, 0x000000000000003E)
  | .jsetK _ _ _ => (0x000000000000F0FF, 0x0000000000000045)
  | .jsetX _ _ _ => (0xFFFFFFFF000000FF, 0x000000000000004D)
  | .jset32K _ _ _ => (0x000000000000F0FF, 0x0000000000000046)
  | .jset32X _ _ _ => (0xFFFFFFFF000000FF, 0x000000000000004E)
  | .jneK _ _ _ => (0x000000000000F0FF, 0x0000000000000055)
  | .jneX _ _ _ => (0xFFFFFFFF000000FF, 0x000000000000005D)
  | .jne32K _ _ _ => (0x000000000000F0FF, 0x0000000000000056)
  | .jne32X _ _ _ => (0xFFFFFFFF000000FF, 0x000000000000005E)
  | .jsgtK _ _ _ => (0x000000000000F0FF, 0x0000000000000065)
  | .jsgtX _ _ _ => (0xFFFFFFFF000000FF, 0x000000000000006D)
  | .jsgt32K _ _ _ => (0x000000000000F0FF, 0x0000000000000066)
  | .jsgt32X _ _ _ => (0xFFFFFFFF000000FF, 0x000000000000006E)
  | .jsgeK _ _ _ => (0x000000000000F0FF, 0x0000000000000075)
  | .jsgeX _ _ _ => (0xFFFFFFFF000000FF, 0x000000000000007D)
  | .jsge32K _ _ _ => (0x000000000000F0FF, 0x0000000000000076)
  | .jsge32X _ _ _ => (0xFFFFFFFF000000FF, 0x000000000000007E)
  | .jltK _ _ _ => (0x000000000000F0FF, 0x00000000000000A5)
  | .jltX _ _ _ => (0xFFFFFFFF000000FF, 0x00000000000000AD)
  | .jlt32K _ _ _ => (0x000000000000F0FF, 0x00000000000000A6)
  | .jlt32X _ _ _ => (0xFFFFFFFF000000FF, 0x00000000000000AE)
  | .jleK _ _ _ => (0x000000000000F0FF, 0x00000000000000B5)
  | .jleX _ _ _ => (0xFFFFFFFF000000FF, 0x00000000000000BD)
  | .jle32K _ _ _ => (0x000000000000F0FF, 0x00000000000000B6)
  | .jle32X _ _ _ => (0xFFFFFFFF000000FF, 0x00000000000000BE)
  | .jsltK _ _ _ => (0x000000000000F0FF, 0x00000000000000C5)
  | .jsltX _ _ _ => (0xFFFFFFFF000000FF, 0x00000000000000CD)
  | .jslt32K _ _ _ => (0x000000000000F0FF, 0x00000000000000C6)
  | .jslt32X _ _ _ => (0xFFFFFFFF000000FF, 0x00000000000000CE)
  | .jsleK _ _ _ => (0x000000000000F0FF, 0x00000000000000D5)
  | .jsleX _ _ _ => (0xFFFFFFFF000000FF, 0x00000000000000DD)
  | .jsle32K _ _ _ => (0x000000000000F0FF, 0x00000000000000D6)
  | .jsle32X _ _ _ => (0xFFFFFFFF000000FF, 0x00000000000000DE)
  | .call _ => (0x00000000FFFFFFFF, 0x0000000000000085)
  | .exit => (0xFFFFFFFFFFFFFFFF, 0x0000000000000095)
  | .stxw _ _ _ => (0xFFFFFFFF000000FF, 0x0000000000000063)
  | .stxh _ _ _ => (0xFFFFFFFF000000FF, 0x000000000000006B)
  | .stxb _ _ _ => (0xFFFFFFFF000000FF, 0x0000000000000073)
  | .stxdw _ _ _ => (0xFFFFFFFF000000FF, 0x000000000000007B)
  | .stw _ _ _ => (0x000000000000F0FF, 0x0000000000000062)
  | .sth _ _ _ => (0x000000000000F0FF, 0x000000000000006A)
  | .stb _ _ _ => (0x000000000000F0FF, 0x0000000000000072)
  | .stdw _ _ _ => (0x000000000000F0FF, 0x000000000000007A)
  | .ldxw _ _ _ => (0xFFFFFFFF000000FF, 0x0000000000000061)
  | .ldxh _ _ _ => (0xFFFFFFFF000000FF, 0x0000000000000069)
  | .ldxb _ _ _ => (0xFFFFFFFF000000FF, 0x0000000000000071)
  | .ldxdw _ _ _ => (0xFFFFFFFF000000FF, 0x0000000000000079)
  | .atomicAdd32 _ _ _ => (0xFFFFFFFF000000FF, 0x00000000000000C3)
  | .atomicAdd64 _ _ _ => (0xFFFFFFFF000000FF, 0x00000000000000DB)
  | .atomicOr32 _ _ _ => (0xFFFFFFFF000000FF, 0x00000040000000C3)
  | .atomicOr64 _ _ _ => (0xFFFFFFFF000000FF, 0x00000040000000DB)
  | .atomicAnd32 _ _ _ => (0xFFFFFFFF000000FF, 0x00000050000000C3)
  | .atomicAnd64 _ _ _ => (0xFFFFFFFF000000FF, 0x00000050000000DB)
  | .atomicXor32 _ _ _ => (0xFFFFFFFF000000FF, 0x000000A0000000C3)
  | .atomicXor64 _ _ _ => (0xFFFFFFFF000000FF, 0x000000A0000000DB)
  | .atomicFetchAdd32 _ _ _ => (0xFFFFFFFF000000FF, 0x00000001000000C3)
  | .atomicFetchAdd64 _ _ _ => (0xFFFFFFFF000000FF, 0x00000001000000DB)
  | .atomicFetchOr32 _ _ _ => (0xFFFFFFFF000000FF, 0x00000041000000C3)
  | .atomicFetchOr64 _ _ _ => (0xFFFFFFFF000000FF, 0x00000041000000DB)
  | .atomicFetchAnd32 _ _ _ => (0xFFFFFFFF000000FF, 0x00000051000000C3)
  | .atomicFetchAnd64 _ _ _ => (0xFFFFFFFF000000FF, 0x00000051000000DB)
  | .atomicFetchXor32 _ _ _ => (0xFFFFFFFF000000FF, 0x000000A1000000C3)
  | .atomicFetchXor64 _ _ _ => (0xFFFFFFFF000000FF, 0x000000A1000000DB)
  | .atomicXchg32 _ _ _ => (0xFFFFFFFF000000FF, 0x000000E1000000C3)
  | .atomicXchg64 _ _ _ => (0xFFFFFFFF000000FF, 0x000000E1000000DB)
  | .atomicCmpxchg32 _ _ _ => (0xFFFFFFFF000000FF, 0x000000F1000000C3)
  | .atomicCmpxchg64 _ _ _ => (0xFFFFFFFF000000FF, 0x000000F1000000DB)
  | .lddw _ _ => (0x00000000FFFFF0FF, 0x0000000000000018)
  | .ldabsw _ => (0x00000000000000FF, 0x0000000000000020)
  | .ldabsh _ => (0x00000000000000FF, 0x0000000000000028)
  | .ldabsb _ => (0x00000000000000FF, 0x0000000000000030)
  | .ldabsdw _ => (0x00000000000000FF, 0x0000000000000038)
  | .ldindw _ => (0x00000000000000FF, 0x0000000000000040)
  | .ldindh _ => (0x00000000000000FF, 0x0000000000000048)
  | .ldindb _ => (0x00000000000000FF, 0x0000000000000050)
  | .ldinddw _ => (0x00000000000000FF, 0x0000000000000058)

/-- The first word of the instruction matches its row. -/
def Statement (i : Instr) : Prop := (encodeFields i).toWord &&& (row i).1 = (row i).2

/-- The bitwise and of two words, field by field. -/
theorem toWord_and (f m : Fields) : f.toWord &&& m.toWord =
    (⟨f.imm &&& m.imm, f.off &&& m.off, f.src &&& m.src, f.dst &&& m.dst, f.opcode &&& m.opcode⟩ : Fields).toWord := by
  have key : ∀ (a a' : BitVec 32) (b b' : BitVec 16) (c c' d d' : BitVec 4) (e e' : BitVec 8),
      (a ++ b ++ c ++ d ++ e) &&& (a' ++ b' ++ c' ++ d' ++ e') =
        (a &&& a') ++ (b &&& b') ++ (c &&& c') ++ (d &&& d') ++ (e &&& e') := by
    intros; simp only [BitVec.and_append]
  exact key _ _ _ _ _ _ _ _ _ _

/-- Formats ALU_K and LDDW. -/
theorem operandImm (imm : BitVec 32) (d : BitVec 4) (op : BitVec 8) :
    (⟨imm, 0, 0, d, op⟩ : Fields).toWord &&& 0x00000000FFFFF0FF = (⟨0, 0, 0, 0, op⟩ : Fields).toWord := by
  rw [show (0x00000000FFFFF0FF : Word) = (⟨0, BitVec.allOnes 16, BitVec.allOnes 4, 0, BitVec.allOnes 8⟩ : Fields).toWord by decide,
    toWord_and]
  simp only [BitVec.and_allOnes, BitVec.ofNat_eq_ofNat, BitVec.and_zero]

/-- Format ALU_X. -/
theorem twoRegisters (x d : BitVec 4) (op : BitVec 8) :
    (⟨0, 0, x, d, op⟩ : Fields).toWord &&& 0xFFFFFFFFFFFF00FF = (⟨0, 0, 0, 0, op⟩ : Fields).toWord := by
  rw [show (0xFFFFFFFFFFFF00FF : Word) = (⟨BitVec.allOnes 32, BitVec.allOnes 16, 0, 0, BitVec.allOnes 8⟩ : Fields).toWord by decide,
    toWord_and]
  simp only [BitVec.and_allOnes, BitVec.ofNat_eq_ofNat, BitVec.and_zero]

/-- Format END. -/
theorem fixedImm (k : BitVec 32) (d : BitVec 4) (op : BitVec 8) :
    (⟨k, 0, 0, d, op⟩ : Fields).toWord &&& 0xFFFFFFFFFFFFF0FF = (⟨k, 0, 0, 0, op⟩ : Fields).toWord := by
  rw [show (0xFFFFFFFFFFFFF0FF : Word) =
      (⟨BitVec.allOnes 32, BitVec.allOnes 16, BitVec.allOnes 4, 0, BitVec.allOnes 8⟩ : Fields).toWord by decide, toWord_and]
  simp only [BitVec.and_allOnes, BitVec.ofNat_eq_ofNat, BitVec.and_zero]

/-- Format JA. -/
theorem offsetOnly (off : BitVec 16) (op : BitVec 8) :
    (⟨0, off, 0, 0, op⟩ : Fields).toWord &&& 0xFFFFFFFF0000FFFF = (⟨0, 0, 0, 0, op⟩ : Fields).toWord := by
  rw [show (0xFFFFFFFF0000FFFF : Word) =
      (⟨BitVec.allOnes 32, 0, BitVec.allOnes 4, BitVec.allOnes 4, BitVec.allOnes 8⟩ : Fields).toWord by decide, toWord_and]
  simp only [BitVec.and_allOnes, BitVec.ofNat_eq_ofNat, BitVec.and_zero]

/-- Formats JCOND_K and ST. -/
theorem immAndOffset (imm : BitVec 32) (off : BitVec 16) (d : BitVec 4) (op : BitVec 8) :
    (⟨imm, off, 0, d, op⟩ : Fields).toWord &&& 0x000000000000F0FF = (⟨0, 0, 0, 0, op⟩ : Fields).toWord := by
  rw [show (0x000000000000F0FF : Word) = (⟨0, 0, BitVec.allOnes 4, 0, BitVec.allOnes 8⟩ : Fields).toWord by decide, toWord_and]
  simp only [BitVec.and_allOnes, BitVec.ofNat_eq_ofNat, BitVec.and_zero]

/-- Formats JCOND_X, LDX, STX and ATOMIC. -/
theorem registersAndOffset (k : BitVec 32) (off : BitVec 16) (x d : BitVec 4) (op : BitVec 8) :
    (⟨k, off, x, d, op⟩ : Fields).toWord &&& 0xFFFFFFFF000000FF = (⟨k, 0, 0, 0, op⟩ : Fields).toWord := by
  rw [show (0xFFFFFFFF000000FF : Word) = (⟨BitVec.allOnes 32, 0, 0, 0, BitVec.allOnes 8⟩ : Fields).toWord by decide, toWord_and]
  simp only [BitVec.and_allOnes, BitVec.ofNat_eq_ofNat, BitVec.and_zero]

/-- Format CALL. -/
theorem immOnly (imm : BitVec 32) (op : BitVec 8) :
    (⟨imm, 0, 0, 0, op⟩ : Fields).toWord &&& 0x00000000FFFFFFFF = (⟨0, 0, 0, 0, op⟩ : Fields).toWord := by
  rw [show (0x00000000FFFFFFFF : Word) =
      (⟨0, BitVec.allOnes 16, BitVec.allOnes 4, BitVec.allOnes 4, BitVec.allOnes 8⟩ : Fields).toWord by decide, toWord_and]
  simp only [BitVec.and_allOnes, BitVec.ofNat_eq_ofNat, BitVec.and_zero]

/-- The legacy opcodes: the opcode byte alone. -/
theorem opcodeOnly (rest : BitVec 56) (op : BitVec 8) :
    (legacyFields op rest).toWord &&& 0x00000000000000FF = (⟨0, 0, 0, 0, op⟩ : Fields).toWord := by
  rw [show (0x00000000000000FF : Word) = (⟨0, 0, 0, 0, BitVec.allOnes 8⟩ : Fields).toWord by decide, toWord_and]
  simp only [legacyFields, BitVec.and_allOnes, BitVec.ofNat_eq_ofNat, BitVec.and_zero]

theorem add32K (dst : GReg) (imm : BitVec 32) : Statement (.add32K dst imm) := operandImm _ _ _
theorem add32X (dst : GReg) (src : Reg) : Statement (.add32X dst src) := twoRegisters _ _ _
theorem add64K (dst : GReg) (imm : BitVec 32) : Statement (.add64K dst imm) := operandImm _ _ _
theorem add64X (dst : GReg) (src : Reg) : Statement (.add64X dst src) := twoRegisters _ _ _
theorem sub32K (dst : GReg) (imm : BitVec 32) : Statement (.sub32K dst imm) := operandImm _ _ _
theorem sub32X (dst : GReg) (src : Reg) : Statement (.sub32X dst src) := twoRegisters _ _ _
theorem sub64K (dst : GReg) (imm : BitVec 32) : Statement (.sub64K dst imm) := operandImm _ _ _
theorem sub64X (dst : GReg) (src : Reg) : Statement (.sub64X dst src) := twoRegisters _ _ _
theorem mul32K (dst : GReg) (imm : BitVec 32) : Statement (.mul32K dst imm) := operandImm _ _ _
theorem mul32X (dst : GReg) (src : Reg) : Statement (.mul32X dst src) := twoRegisters _ _ _
theorem mul64K (dst : GReg) (imm : BitVec 32) : Statement (.mul64K dst imm) := operandImm _ _ _
theorem mul64X (dst : GReg) (src : Reg) : Statement (.mul64X dst src) := twoRegisters _ _ _
theorem div32K (dst : GReg) (imm : BitVec 32) : Statement (.div32K dst imm) := operandImm _ _ _
theorem div32X (dst : GReg) (src : Reg) : Statement (.div32X dst src) := twoRegisters _ _ _
theorem div64K (dst : GReg) (imm : BitVec 32) : Statement (.div64K dst imm) := operandImm _ _ _
theorem div64X (dst : GReg) (src : Reg) : Statement (.div64X dst src) := twoRegisters _ _ _
theorem or32K (dst : GReg) (imm : BitVec 32) : Statement (.or32K dst imm) := operandImm _ _ _
theorem or32X (dst : GReg) (src : Reg) : Statement (.or32X dst src) := twoRegisters _ _ _
theorem or64K (dst : GReg) (imm : BitVec 32) : Statement (.or64K dst imm) := operandImm _ _ _
theorem or64X (dst : GReg) (src : Reg) : Statement (.or64X dst src) := twoRegisters _ _ _
theorem and32K (dst : GReg) (imm : BitVec 32) : Statement (.and32K dst imm) := operandImm _ _ _
theorem and32X (dst : GReg) (src : Reg) : Statement (.and32X dst src) := twoRegisters _ _ _
theorem and64K (dst : GReg) (imm : BitVec 32) : Statement (.and64K dst imm) := operandImm _ _ _
theorem and64X (dst : GReg) (src : Reg) : Statement (.and64X dst src) := twoRegisters _ _ _
theorem lsh32K (dst : GReg) (imm : BitVec 32) : Statement (.lsh32K dst imm) := operandImm _ _ _
theorem lsh32X (dst : GReg) (src : Reg) : Statement (.lsh32X dst src) := twoRegisters _ _ _
theorem lsh64K (dst : GReg) (imm : BitVec 32) : Statement (.lsh64K dst imm) := operandImm _ _ _
theorem lsh64X (dst : GReg) (src : Reg) : Statement (.lsh64X dst src) := twoRegisters _ _ _
theorem rsh32K (dst : GReg) (imm : BitVec 32) : Statement (.rsh32K dst imm) := operandImm _ _ _
theorem rsh32X (dst : GReg) (src : Reg) : Statement (.rsh32X dst src) := twoRegisters _ _ _
theorem rsh64K (dst : GReg) (imm : BitVec 32) : Statement (.rsh64K dst imm) := operandImm _ _ _
theorem rsh64X (dst : GReg) (src : Reg) : Statement (.rsh64X dst src) := twoRegisters _ _ _
theorem neg32K (dst : GReg) (imm : BitVec 32) : Statement (.neg32K dst imm) := operandImm _ _ _
theorem neg32X (dst : GReg) (src : Reg) : Statement (.neg32X dst src) := twoRegisters _ _ _
theorem neg64K (dst : GReg) (imm : BitVec 32) : Statement (.neg64K dst imm) := operandImm _ _ _
theorem neg64X (dst : GReg) (src : Reg) : Statement (.neg64X dst src) := twoRegisters _ _ _
theorem mod32K (dst : GReg) (imm : BitVec 32) : Statement (.mod32K dst imm) := operandImm _ _ _
theorem mod32X (dst : GReg) (src : Reg) : Statement (.mod32X dst src) := twoRegisters _ _ _
theorem mod64K (dst : GReg) (imm : BitVec 32) : Statement (.mod64K dst imm) := operandImm _ _ _
theorem mod64X (dst : GReg) (src : Reg) : Statement (.mod64X dst src) := twoRegisters _ _ _
theorem xor32K (dst : GReg) (imm : BitVec 32) : Statement (.xor32K dst imm) := operandImm _ _ _
theorem xor32X (dst : GReg) (src : Reg) : Statement (.xor32X dst src) := twoRegisters _ _ _
theorem xor64K (dst : GReg) (imm : BitVec 32) : Statement (.xor64K dst imm) := operandImm _ _ _
theorem xor64X (dst : GReg) (src : Reg) : Statement (.xor64X dst src) := twoRegisters _ _ _
theorem mov32K (dst : GReg) (imm : BitVec 32) : Statement (.mov32K dst imm) := operandImm _ _ _
theorem mov32X (dst : GReg) (src : Reg) : Statement (.mov32X dst src) := twoRegisters _ _ _
theorem mov64K (dst : GReg) (imm : BitVec 32) : Statement (.mov64K dst imm) := operandImm _ _ _
theorem mov64X (dst : GReg) (src : Reg) : Statement (.mov64X dst src) := twoRegisters _ _ _
theorem arsh32K (dst : GReg) (imm : BitVec 32) : Statement (.arsh32K dst imm) := operandImm _ _ _
theorem arsh32X (dst : GReg) (src : Reg) : Statement (.arsh32X dst src) := twoRegisters _ _ _
theorem arsh64K (dst : GReg) (imm : BitVec 32) : Statement (.arsh64K dst imm) := operandImm _ _ _
theorem arsh64X (dst : GReg) (src : Reg) : Statement (.arsh64X dst src) := twoRegisters _ _ _
theorem le16 (dst : GReg) : Statement (.le16 dst) := fixedImm _ _ _
theorem le32 (dst : GReg) : Statement (.le32 dst) := fixedImm _ _ _
theorem le64 (dst : GReg) : Statement (.le64 dst) := fixedImm _ _ _
theorem be16 (dst : GReg) : Statement (.be16 dst) := fixedImm _ _ _
theorem be32 (dst : GReg) : Statement (.be32 dst) := fixedImm _ _ _
theorem be64 (dst : GReg) : Statement (.be64 dst) := fixedImm _ _ _
theorem ja (off : BitVec 16) : Statement (.ja off) := offsetOnly _ _
theorem jeqK (dst : Reg) (imm : BitVec 32) (off : BitVec 16) : Statement (.jeqK dst imm off) := immAndOffset _ _ _ _
theorem jeqX (dst src : Reg) (off : BitVec 16) : Statement (.jeqX dst src off) := registersAndOffset _ _ _ _ _
theorem jeq32K (dst : Reg) (imm : BitVec 32) (off : BitVec 16) : Statement (.jeq32K dst imm off) := immAndOffset _ _ _ _
theorem jeq32X (dst src : Reg) (off : BitVec 16) : Statement (.jeq32X dst src off) := registersAndOffset _ _ _ _ _
theorem jgtK (dst : Reg) (imm : BitVec 32) (off : BitVec 16) : Statement (.jgtK dst imm off) := immAndOffset _ _ _ _
theorem jgtX (dst src : Reg) (off : BitVec 16) : Statement (.jgtX dst src off) := registersAndOffset _ _ _ _ _
theorem jgt32K (dst : Reg) (imm : BitVec 32) (off : BitVec 16) : Statement (.jgt32K dst imm off) := immAndOffset _ _ _ _
theorem jgt32X (dst src : Reg) (off : BitVec 16) : Statement (.jgt32X dst src off) := registersAndOffset _ _ _ _ _
theorem jgeK (dst : Reg) (imm : BitVec 32) (off : BitVec 16) : Statement (.jgeK dst imm off) := immAndOffset _ _ _ _
theorem jgeX (dst src : Reg) (off : BitVec 16) : Statement (.jgeX dst src off) := registersAndOffset _ _ _ _ _
theorem jge32K (dst : Reg) (imm : BitVec 32) (off : BitVec 16) : Statement (.jge32K dst imm off) := immAndOffset _ _ _ _
theorem jge32X (dst src : Reg) (off : BitVec 16) : Statement (.jge32X dst src off) := registersAndOffset _ _ _ _ _
theorem jsetK (dst : Reg) (imm : BitVec 32) (off : BitVec 16) : Statement (.jsetK dst imm off) := immAndOffset _ _ _ _
theorem jsetX (dst src : Reg) (off : BitVec 16) : Statement (.jsetX dst src off) := registersAndOffset _ _ _ _ _
theorem jset32K (dst : Reg) (imm : BitVec 32) (off : BitVec 16) : Statement (.jset32K dst imm off) := immAndOffset _ _ _ _
theorem jset32X (dst src : Reg) (off : BitVec 16) : Statement (.jset32X dst src off) := registersAndOffset _ _ _ _ _
theorem jneK (dst : Reg) (imm : BitVec 32) (off : BitVec 16) : Statement (.jneK dst imm off) := immAndOffset _ _ _ _
theorem jneX (dst src : Reg) (off : BitVec 16) : Statement (.jneX dst src off) := registersAndOffset _ _ _ _ _
theorem jne32K (dst : Reg) (imm : BitVec 32) (off : BitVec 16) : Statement (.jne32K dst imm off) := immAndOffset _ _ _ _
theorem jne32X (dst src : Reg) (off : BitVec 16) : Statement (.jne32X dst src off) := registersAndOffset _ _ _ _ _
theorem jsgtK (dst : Reg) (imm : BitVec 32) (off : BitVec 16) : Statement (.jsgtK dst imm off) := immAndOffset _ _ _ _
theorem jsgtX (dst src : Reg) (off : BitVec 16) : Statement (.jsgtX dst src off) := registersAndOffset _ _ _ _ _
theorem jsgt32K (dst : Reg) (imm : BitVec 32) (off : BitVec 16) : Statement (.jsgt32K dst imm off) := immAndOffset _ _ _ _
theorem jsgt32X (dst src : Reg) (off : BitVec 16) : Statement (.jsgt32X dst src off) := registersAndOffset _ _ _ _ _
theorem jsgeK (dst : Reg) (imm : BitVec 32) (off : BitVec 16) : Statement (.jsgeK dst imm off) := immAndOffset _ _ _ _
theorem jsgeX (dst src : Reg) (off : BitVec 16) : Statement (.jsgeX dst src off) := registersAndOffset _ _ _ _ _
theorem jsge32K (dst : Reg) (imm : BitVec 32) (off : BitVec 16) : Statement (.jsge32K dst imm off) := immAndOffset _ _ _ _
theorem jsge32X (dst src : Reg) (off : BitVec 16) : Statement (.jsge32X dst src off) := registersAndOffset _ _ _ _ _
theorem jltK (dst : Reg) (imm : BitVec 32) (off : BitVec 16) : Statement (.jltK dst imm off) := immAndOffset _ _ _ _
theorem jltX (dst src : Reg) (off : BitVec 16) : Statement (.jltX dst src off) := registersAndOffset _ _ _ _ _
theorem jlt32K (dst : Reg) (imm : BitVec 32) (off : BitVec 16) : Statement (.jlt32K dst imm off) := immAndOffset _ _ _ _
theorem jlt32X (dst src : Reg) (off : BitVec 16) : Statement (.jlt32X dst src off) := registersAndOffset _ _ _ _ _
theorem jleK (dst : Reg) (imm : BitVec 32) (off : BitVec 16) : Statement (.jleK dst imm off) := immAndOffset _ _ _ _
theorem jleX (dst src : Reg) (off : BitVec 16) : Statement (.jleX dst src off) := registersAndOffset _ _ _ _ _
theorem jle32K (dst : Reg) (imm : BitVec 32) (off : BitVec 16) : Statement (.jle32K dst imm off) := immAndOffset _ _ _ _
theorem jle32X (dst src : Reg) (off : BitVec 16) : Statement (.jle32X dst src off) := registersAndOffset _ _ _ _ _
theorem jsltK (dst : Reg) (imm : BitVec 32) (off : BitVec 16) : Statement (.jsltK dst imm off) := immAndOffset _ _ _ _
theorem jsltX (dst src : Reg) (off : BitVec 16) : Statement (.jsltX dst src off) := registersAndOffset _ _ _ _ _
theorem jslt32K (dst : Reg) (imm : BitVec 32) (off : BitVec 16) : Statement (.jslt32K dst imm off) := immAndOffset _ _ _ _
theorem jslt32X (dst src : Reg) (off : BitVec 16) : Statement (.jslt32X dst src off) := registersAndOffset _ _ _ _ _
theorem jsleK (dst : Reg) (imm : BitVec 32) (off : BitVec 16) : Statement (.jsleK dst imm off) := immAndOffset _ _ _ _
theorem jsleX (dst src : Reg) (off : BitVec 16) : Statement (.jsleX dst src off) := registersAndOffset _ _ _ _ _
theorem jsle32K (dst : Reg) (imm : BitVec 32) (off : BitVec 16) : Statement (.jsle32K dst imm off) := immAndOffset _ _ _ _
theorem jsle32X (dst src : Reg) (off : BitVec 16) : Statement (.jsle32X dst src off) := registersAndOffset _ _ _ _ _
theorem call (imm : BitVec 32) : Statement (.call imm) := immOnly _ _
theorem exit : Statement .exit := by unfold Statement; decide
theorem stxw (dst src : Reg) (off : BitVec 16) : Statement (.stxw dst src off) := registersAndOffset _ _ _ _ _
theorem stxh (dst src : Reg) (off : BitVec 16) : Statement (.stxh dst src off) := registersAndOffset _ _ _ _ _
theorem stxb (dst src : Reg) (off : BitVec 16) : Statement (.stxb dst src off) := registersAndOffset _ _ _ _ _
theorem stxdw (dst src : Reg) (off : BitVec 16) : Statement (.stxdw dst src off) := registersAndOffset _ _ _ _ _
theorem stw (dst : Reg) (off : BitVec 16) (imm : BitVec 32) : Statement (.stw dst off imm) := immAndOffset _ _ _ _
theorem sth (dst : Reg) (off : BitVec 16) (imm : BitVec 32) : Statement (.sth dst off imm) := immAndOffset _ _ _ _
theorem stb (dst : Reg) (off : BitVec 16) (imm : BitVec 32) : Statement (.stb dst off imm) := immAndOffset _ _ _ _
theorem stdw (dst : Reg) (off : BitVec 16) (imm : BitVec 32) : Statement (.stdw dst off imm) := immAndOffset _ _ _ _
theorem ldxw (dst : GReg) (src : Reg) (off : BitVec 16) : Statement (.ldxw dst src off) := registersAndOffset _ _ _ _ _
theorem ldxh (dst : GReg) (src : Reg) (off : BitVec 16) : Statement (.ldxh dst src off) := registersAndOffset _ _ _ _ _
theorem ldxb (dst : GReg) (src : Reg) (off : BitVec 16) : Statement (.ldxb dst src off) := registersAndOffset _ _ _ _ _
theorem ldxdw (dst : GReg) (src : Reg) (off : BitVec 16) : Statement (.ldxdw dst src off) := registersAndOffset _ _ _ _ _
theorem atomicAdd32 (dst src : Reg) (off : BitVec 16) : Statement (.atomicAdd32 dst src off) := registersAndOffset _ _ _ _ _
theorem atomicAdd64 (dst src : Reg) (off : BitVec 16) : Statement (.atomicAdd64 dst src off) := registersAndOffset _ _ _ _ _
theorem atomicOr32 (dst src : Reg) (off : BitVec 16) : Statement (.atomicOr32 dst src off) := registersAndOffset _ _ _ _ _
theorem atomicOr64 (dst src : Reg) (off : BitVec 16) : Statement (.atomicOr64 dst src off) := registersAndOffset _ _ _ _ _
theorem atomicAnd32 (dst src : Reg) (off : BitVec 16) : Statement (.atomicAnd32 dst src off) := registersAndOffset _ _ _ _ _
theorem atomicAnd64 (dst src : Reg) (off : BitVec 16) : Statement (.atomicAnd64 dst src off) := registersAndOffset _ _ _ _ _
theorem atomicXor32 (dst src : Reg) (off : BitVec 16) : Statement (.atomicXor32 dst src off) := registersAndOffset _ _ _ _ _
theorem atomicXor64 (dst src : Reg) (off : BitVec 16) : Statement (.atomicXor64 dst src off) := registersAndOffset _ _ _ _ _
theorem atomicFetchAdd32 (dst : Reg) (src : GReg) (off : BitVec 16) : Statement (.atomicFetchAdd32 dst src off) := registersAndOffset _ _ _ _ _
theorem atomicFetchAdd64 (dst : Reg) (src : GReg) (off : BitVec 16) : Statement (.atomicFetchAdd64 dst src off) := registersAndOffset _ _ _ _ _
theorem atomicFetchOr32 (dst : Reg) (src : GReg) (off : BitVec 16) : Statement (.atomicFetchOr32 dst src off) := registersAndOffset _ _ _ _ _
theorem atomicFetchOr64 (dst : Reg) (src : GReg) (off : BitVec 16) : Statement (.atomicFetchOr64 dst src off) := registersAndOffset _ _ _ _ _
theorem atomicFetchAnd32 (dst : Reg) (src : GReg) (off : BitVec 16) : Statement (.atomicFetchAnd32 dst src off) := registersAndOffset _ _ _ _ _
theorem atomicFetchAnd64 (dst : Reg) (src : GReg) (off : BitVec 16) : Statement (.atomicFetchAnd64 dst src off) := registersAndOffset _ _ _ _ _
theorem atomicFetchXor32 (dst : Reg) (src : GReg) (off : BitVec 16) : Statement (.atomicFetchXor32 dst src off) := registersAndOffset _ _ _ _ _
theorem atomicFetchXor64 (dst : Reg) (src : GReg) (off : BitVec 16) : Statement (.atomicFetchXor64 dst src off) := registersAndOffset _ _ _ _ _
theorem atomicXchg32 (dst : Reg) (src : GReg) (off : BitVec 16) : Statement (.atomicXchg32 dst src off) := registersAndOffset _ _ _ _ _
theorem atomicXchg64 (dst : Reg) (src : GReg) (off : BitVec 16) : Statement (.atomicXchg64 dst src off) := registersAndOffset _ _ _ _ _
theorem atomicCmpxchg32 (dst src : Reg) (off : BitVec 16) : Statement (.atomicCmpxchg32 dst src off) := registersAndOffset _ _ _ _ _
theorem atomicCmpxchg64 (dst src : Reg) (off : BitVec 16) : Statement (.atomicCmpxchg64 dst src off) := registersAndOffset _ _ _ _ _
theorem lddw (dst : GReg) (imm64 : Word) : Statement (.lddw dst imm64) := operandImm _ _ _
theorem ldabsw (rest : BitVec 56) : Statement (.ldabsw rest) := opcodeOnly rest 0x20
theorem ldabsh (rest : BitVec 56) : Statement (.ldabsh rest) := opcodeOnly rest 0x28
theorem ldabsb (rest : BitVec 56) : Statement (.ldabsb rest) := opcodeOnly rest 0x30
theorem ldabsdw (rest : BitVec 56) : Statement (.ldabsdw rest) := opcodeOnly rest 0x38
theorem ldindw (rest : BitVec 56) : Statement (.ldindw rest) := opcodeOnly rest 0x40
theorem ldindh (rest : BitVec 56) : Statement (.ldindh rest) := opcodeOnly rest 0x48
theorem ldindb (rest : BitVec 56) : Statement (.ldindb rest) := opcodeOnly rest 0x50
theorem ldinddw (rest : BitVec 56) : Statement (.ldinddw rest) := opcodeOnly rest 0x58

end Sys2Proof.Laws.EncodingMatchesTable
end

