-- ==== Sys2Proof/Tests/Slice0.lean ====
section
/-! SUPPORT. Tests: well-formedness, decoding of the spec's words, one-step vectors of the spec, and a witness for the
hypotheses of every obligation. Expected results are the spec's. -/

namespace Sys2Proof.Tests

open Sys2Proof Sys2Proof.Machine

/-! ### Ill-formed terms: what `wellFormed` refuses (R105) -/

theorem test_ill_formed_neg32_imm : (Instr.neg32K .r1 1).wellFormed .negateDst = false := by decide
theorem test_ill_formed_neg64_imm : (Instr.neg64K .r1 1).wellFormed .negateDst = false := by decide
theorem test_ill_formed_neg32_reg : (Instr.neg32X .r1 .r10).wellFormed .negateDst = false := by decide
theorem test_ill_formed_neg64_reg : (Instr.neg64X .r1 .r10).wellFormed .negateDst = false := by decide
theorem test_well_formed_neg : (Instr.neg32K .r1 1).wellFormed .literal = true ∧
    (Instr.neg64K .r1 0).wellFormed .negateDst = true := by decide

/-! ### Small states -/

/-- Consecutive bytes of memory. -/
def cells (a : Nat) : List Byte → List Host.Cell
  | [] => []
  | b :: bs => (a, b) :: cells (a + 1) bs

/-- Registers that hold the listed values; the others hold none. -/
def registers : List (GReg × Word) → RegFile
  | [] => ⟨none, none, none, none, none, none, none, none, none, none, 0x10000⟩
  | (g, v) :: l => (registers l).set g (some v)

/-- A state at slot `pc` of a program with the given words there, over the stack of `State.reset`. -/
def small (pc : Nat) (ws : List Word) (regs : List (GReg × Word)) (mem : List Host.Cell) : State :=
  { State.reset with
    regs := registers regs
    pc := pc
    mem := mem
    par := { resetParams with program := List.replicate pc 0 ++ ws } }

/-- The state with another `HOST_ENDIAN`. -/
def withHostEndian (s : State) (e : Endian) : State := { s with par := { s.par with hostEndian := e } }

/-- The state with another `SHIFT_POLICY`. -/
def withShiftPolicy (s : State) (p : ShiftPolicy) : State := { s with par := { s.par with shiftPolicy := p } }

/-- The state with another `ALIGN_POLICY`. -/
def withAlignPolicy (s : State) (p : AlignPolicy) : State := { s with par := { s.par with alignPolicy := p } }

/-- The state with another `NEG_READING`. -/
def withNegReading (s : State) (n : NegReading) : State := { s with par := { s.par with negReading := n } }

/-- A step gives a running state with this `pc`, these registers and these bytes. -/
def gives (s : State) (pc : Int) (regs : List (GReg × Word)) (mem : List Host.Cell) : Bool :=
  match step s with
  | .next t => decide (t.pc = pc) && decide (t.out = .running) &&
      regs.all (fun p => decide (t.regs.get p.1 = some p.2)) && mem.all (fun c => decide (Memory.get t.mem c.1 = some c.2))
  | .fault _ => false
  | .refused _ => false

/-- A step ends the run with the fault and changes nothing else. -/
def endsIn (s : State) (f : FaultInfo) : Bool :=
  match step s with
  | .next t => decide (t = s.withFault f)
  | .fault _ => false
  | .refused _ => false

/-- The decoder refuses the word with the kind. -/
def refuses (w : Word) (second : Option Word) (k : RefusalKind) : Bool :=
  match decode .literal w second with
  | .ok _ => false
  | .error e => decide (e = k)

/-! ### Decoding: words written out in the rules of spec/ (40_alu.md to 45_imm64_legacy.md, each rule's example) -/

/-- The word decodes to the instruction. -/
def decodesTo (p : Word × Instr) : Bool := decide (decode .literal p.1 none = .ok p.2)

theorem test_decode_alu_imm_1 : [
  (0xffffffff00000104, .add32K .r1 (-1)),
  (0x0000000100000107, .add64K .r1 1),
  (0x0000000100000114, .sub32K .r1 1),
  (0x0000000100000117, .sub64K .r1 1),
  (0xffffffff00000124, .mul32K .r1 (-1)),
  (0xffffffff00000127, .mul64K .r1 (-1)),
  (0xffffffff00000134, .div32K .r1 (-1)),
  (0xffffffff00000137, .div64K .r1 (-1)),
  (0x8000000000000144, .or32K .r1 (-2147483648)),
  (0x8000000000000147, .or64K .r1 (-2147483648)),
  (0x0000ffff00000154, .and32K .r1 65535),
  (0xfffffff000000157, .and64K .r1 (-16)),
  (0x0000000100000164, .lsh32K .r1 1),
  (0x0000000100000167, .lsh64K .r1 1)].all decodesTo = true := by
  decide

theorem test_decode_alu_imm_2 : [
  (0x0000001f00000174, .rsh32K .r1 31),
  (0x0000003f00000177, .rsh64K .r1 63),
  (0x0000000000000184, .neg32K .r1 0),
  (0x0000000000000187, .neg64K .r1 0),
  (0x0000000700000194, .mod32K .r1 7),
  (0x0000000700000197, .mod64K .r1 7),
  (0xffffffff000001a4, .xor32K .r1 (-1)),
  (0xffffffff000001a7, .xor64K .r1 (-1)),
  (0xffffffff000001b4, .mov32K .r1 (-1)),
  (0xffffffff000001b7, .mov64K .r1 (-1)),
  (0x0000001f000001c4, .arsh32K .r1 31),
  (0x0000003f000001c7, .arsh64K .r1 63)].all decodesTo = true := by
  decide

theorem test_decode_alu_reg_1 : [
  (0x000000000000210c, .add32X .r1 (.gpr .r2)),
  (0x000000000000210f, .add64X .r1 (.gpr .r2)),
  (0x000000000000211c, .sub32X .r1 (.gpr .r2)),
  (0x000000000000211f, .sub64X .r1 (.gpr .r2)),
  (0x000000000000212c, .mul32X .r1 (.gpr .r2)),
  (0x000000000000212f, .mul64X .r1 (.gpr .r2)),
  (0x000000000000213c, .div32X .r1 (.gpr .r2)),
  (0x000000000000213f, .div64X .r1 (.gpr .r2)),
  (0x000000000000214c, .or32X .r1 (.gpr .r2)),
  (0x000000000000214f, .or64X .r1 (.gpr .r2)),
  (0x000000000000215c, .and32X .r1 (.gpr .r2)),
  (0x000000000000215f, .and64X .r1 (.gpr .r2)),
  (0x000000000000216c, .lsh32X .r1 (.gpr .r2)),
  (0x000000000000216f, .lsh64X .r1 (.gpr .r2))].all decodesTo = true := by
  decide

theorem test_decode_alu_reg_2 : [
  (0x000000000000217c, .rsh32X .r1 (.gpr .r2)),
  (0x000000000000217f, .rsh64X .r1 (.gpr .r2)),
  (0x000000000000218c, .neg32X .r1 (.gpr .r2)),
  (0x000000000000218f, .neg64X .r1 (.gpr .r2)),
  (0x000000000000219c, .mod32X .r1 (.gpr .r2)),
  (0x000000000000219f, .mod64X .r1 (.gpr .r2)),
  (0x00000000000021ac, .xor32X .r1 (.gpr .r2)),
  (0x00000000000021af, .xor64X .r1 (.gpr .r2)),
  (0x00000000000021bc, .mov32X .r1 (.gpr .r2)),
  (0x00000000000021bf, .mov64X .r1 (.gpr .r2)),
  (0x00000000000021cc, .arsh32X .r1 (.gpr .r2)),
  (0x00000000000021cf, .arsh64X .r1 (.gpr .r2))].all decodesTo = true := by
  decide

theorem test_decode_byte_swap : [
  (0x00000010000001d4, .le16 .r1),
  (0x00000020000001d4, .le32 .r1),
  (0x00000040000001d4, .le64 .r1),
  (0x00000010000001dc, .be16 .r1),
  (0x00000020000001dc, .be32 .r1),
  (0x00000040000001dc, .be64 .r1)].all decodesTo = true := by
  decide

theorem test_decode_jump : [
  (0x0000000000020005, .ja 2),
  (0x0000000700000085, .call 7)].all decodesTo = true := by
  decide

theorem test_decode_jump_imm_1 : [
  (0xffffffff00020115, .jeqK (.gpr .r1) (-1) 2),
  (0xffffffff00020116, .jeq32K (.gpr .r1) (-1) 2),
  (0xffffffff00020125, .jgtK (.gpr .r1) (-1) 2),
  (0xffffffff00020126, .jgt32K (.gpr .r1) (-1) 2),
  (0xffffffff00020135, .jgeK (.gpr .r1) (-1) 2),
  (0xffffffff00020136, .jge32K (.gpr .r1) (-1) 2),
  (0xffffffff00020145, .jsetK (.gpr .r1) (-1) 2),
  (0xffffffff00020146, .jset32K (.gpr .r1) (-1) 2),
  (0xffffffff00020155, .jneK (.gpr .r1) (-1) 2),
  (0xffffffff00020156, .jne32K (.gpr .r1) (-1) 2),
  (0xffffffff00020165, .jsgtK (.gpr .r1) (-1) 2),
  (0xffffffff00020166, .jsgt32K (.gpr .r1) (-1) 2),
  (0xffffffff00020175, .jsgeK (.gpr .r1) (-1) 2),
  (0xffffffff00020176, .jsge32K (.gpr .r1) (-1) 2)].all decodesTo = true := by
  decide

theorem test_decode_jump_imm_2 : [
  (0xffffffff000201a5, .jltK (.gpr .r1) (-1) 2),
  (0xffffffff000201a6, .jlt32K (.gpr .r1) (-1) 2),
  (0xffffffff000201b5, .jleK (.gpr .r1) (-1) 2),
  (0xffffffff000201b6, .jle32K (.gpr .r1) (-1) 2),
  (0xffffffff000201c5, .jsltK (.gpr .r1) (-1) 2),
  (0xffffffff000201c6, .jslt32K (.gpr .r1) (-1) 2),
  (0xffffffff000201d5, .jsleK (.gpr .r1) (-1) 2),
  (0xffffffff000201d6, .jsle32K (.gpr .r1) (-1) 2)].all decodesTo = true := by
  decide

theorem test_decode_jump_reg_1 : [
  (0x000000000002211d, .jeqX (.gpr .r1) (.gpr .r2) 2),
  (0x000000000002211e, .jeq32X (.gpr .r1) (.gpr .r2) 2),
  (0x000000000002212d, .jgtX (.gpr .r1) (.gpr .r2) 2),
  (0x000000000002212e, .jgt32X (.gpr .r1) (.gpr .r2) 2),
  (0x000000000002213d, .jgeX (.gpr .r1) (.gpr .r2) 2),
  (0x000000000002213e, .jge32X (.gpr .r1) (.gpr .r2) 2),
  (0x000000000002214d, .jsetX (.gpr .r1) (.gpr .r2) 2),
  (0x000000000002214e, .jset32X (.gpr .r1) (.gpr .r2) 2),
  (0x000000000002215d, .jneX (.gpr .r1) (.gpr .r2) 2),
  (0x000000000002215e, .jne32X (.gpr .r1) (.gpr .r2) 2),
  (0x000000000002216d, .jsgtX (.gpr .r1) (.gpr .r2) 2),
  (0x000000000002216e, .jsgt32X (.gpr .r1) (.gpr .r2) 2),
  (0x000000000002217d, .jsgeX (.gpr .r1) (.gpr .r2) 2),
  (0x000000000002217e, .jsge32X (.gpr .r1) (.gpr .r2) 2)].all decodesTo = true := by
  decide

theorem test_decode_jump_reg_2 : [
  (0x00000000000221ad, .jltX (.gpr .r1) (.gpr .r2) 2),
  (0x00000000000221ae, .jlt32X (.gpr .r1) (.gpr .r2) 2),
  (0x00000000000221bd, .jleX (.gpr .r1) (.gpr .r2) 2),
  (0x00000000000221be, .jle32X (.gpr .r1) (.gpr .r2) 2),
  (0x00000000000221cd, .jsltX (.gpr .r1) (.gpr .r2) 2),
  (0x00000000000221ce, .jslt32X (.gpr .r1) (.gpr .r2) 2),
  (0x00000000000221dd, .jsleX (.gpr .r1) (.gpr .r2) 2),
  (0x00000000000221de, .jsle32X (.gpr .r1) (.gpr .r2) 2)].all decodesTo = true := by
  decide

theorem test_decode_load_store : [
  (0x00000000fff81a63, .stxw .r10 (.gpr .r1) (-8)),
  (0x00000000fff81a6b, .stxh .r10 (.gpr .r1) (-8)),
  (0x00000000fff81a73, .stxb .r10 (.gpr .r1) (-8)),
  (0x00000000fff81a7b, .stxdw .r10 (.gpr .r1) (-8)),
  (0xfffffffefff80a62, .stw .r10 (-8) (-2)),
  (0xfffffffefff80a6a, .sth .r10 (-8) (-2)),
  (0xfffffffefff80a72, .stb .r10 (-8) (-2)),
  (0xfffffffefff80a7a, .stdw .r10 (-8) (-2)),
  (0x00000000fff8a161, .ldxw .r1 .r10 (-8)),
  (0x00000000fff8a169, .ldxh .r1 .r10 (-8)),
  (0x00000000fff8a171, .ldxb .r1 .r10 (-8)),
  (0x00000000fff8a179, .ldxdw .r1 .r10 (-8))].all decodesTo = true := by
  decide

theorem test_decode_atomic_1 : [
  (0x00000000000021c3, .atomicAdd32 (.gpr .r1) (.gpr .r2) 0),
  (0x00000000000021db, .atomicAdd64 (.gpr .r1) (.gpr .r2) 0),
  (0x00000040000021c3, .atomicOr32 (.gpr .r1) (.gpr .r2) 0),
  (0x00000040000021db, .atomicOr64 (.gpr .r1) (.gpr .r2) 0),
  (0x00000050000021c3, .atomicAnd32 (.gpr .r1) (.gpr .r2) 0),
  (0x00000050000021db, .atomicAnd64 (.gpr .r1) (.gpr .r2) 0),
  (0x000000a0000021c3, .atomicXor32 (.gpr .r1) (.gpr .r2) 0),
  (0x000000a0000021db, .atomicXor64 (.gpr .r1) (.gpr .r2) 0),
  (0x00000001000021c3, .atomicFetchAdd32 (.gpr .r1) .r2 0),
  (0x00000001000021db, .atomicFetchAdd64 (.gpr .r1) .r2 0),
  (0x00000041000021c3, .atomicFetchOr32 (.gpr .r1) .r2 0),
  (0x00000041000021db, .atomicFetchOr64 (.gpr .r1) .r2 0),
  (0x00000051000021c3, .atomicFetchAnd32 (.gpr .r1) .r2 0),
  (0x00000051000021db, .atomicFetchAnd64 (.gpr .r1) .r2 0)].all decodesTo = true := by
  decide

theorem test_decode_atomic_2 : [
  (0x000000a1000021c3, .atomicFetchXor32 (.gpr .r1) .r2 0),
  (0x000000a1000021db, .atomicFetchXor64 (.gpr .r1) .r2 0),
  (0x000000e1000021c3, .atomicXchg32 (.gpr .r1) .r2 0),
  (0x000000e1000021db, .atomicXchg64 (.gpr .r1) .r2 0),
  (0x000000f1000021c3, .atomicCmpxchg32 (.gpr .r1) (.gpr .r2) 0),
  (0x000000f1000021db, .atomicCmpxchg64 (.gpr .r1) (.gpr .r2) 0)].all decodesTo = true := by
  decide

/-- R225. -/
theorem test_decode_exit : decode .literal 0x0000000000000095 none = .ok .exit := by decide

/-- R280: two words. -/
theorem test_decode_lddw :
    decode .literal 0x5566778800000118 (some 0x1122334400000000) = .ok (.lddw .r1 0x1122334455667788) := by decide

/-- R282, R283: the opcode byte and an undecoded rest, here of the rules' examples. -/
theorem test_decode_legacy : [
  (0x0000000e00000020, .ldabsw 0x0000000e000000), (0x0000000e00000028, .ldabsh 0x0000000e000000),
  (0x0000000e00000030, .ldabsb 0x0000000e000000), (0x0000000e00000038, .ldabsdw 0x0000000e000000),
  (0x0000000000001040, .ldindw 0x10), (0x0000000000001048, .ldindh 0x10),
  (0x0000000000001050, .ldindb 0x10), (0x0000000000001058, .ldinddw 0x10)].all decodesTo = true := by
  decide

/-! ### One step: vectors of 95_test_vectors.md Part 2, at most two an instruction -/

/-- V1 to V8. -/
theorem test_arithmetic_1 :
    (gives (small 0 [0x000000000000210f] [(.r1, 0xffffffffffffffff), (.r2, 0x1)] []) (1) [(.r1, 0x0), (.r2, 0x1)] [] &&
    gives (small 0 [0x000000000000210c] [(.r1, 0xffffffff), (.r2, 0x1)] []) (1) [(.r1, 0x0), (.r2, 0x1)] [] &&
    gives (small 0 [0xffffffff00000107] [(.r1, 0x100000000)] []) (1) [(.r1, 0xffffffff)] [] &&
    gives (small 0 [0xffffffff00000104] [(.r1, 0x100000000)] []) (1) [(.r1, 0xffffffff)] [] &&
    gives (small 0 [0x000000000000110f] [(.r1, 0x4000000000000001)] []) (1) [(.r1, 0x8000000000000002)] [] &&
    gives (small 0 [0x000000000000211f] [(.r1, 0x0), (.r2, 0x1)] []) (1) [(.r1, 0xffffffffffffffff), (.r2, 0x1)] [] &&
    gives (small 0 [0x0000000100000114] [(.r1, 0xabcdef0000000000)] []) (1) [(.r1, 0xffffffff)] [] &&
    gives (small 0 [0x000000000000212f] [(.r1, 0x100000001), (.r2, 0x100000001)] []) (1) [(.r1, 0x200000001), (.r2, 0x100000001)] []) = true := by
  decide

/-- V9 to V16. -/
theorem test_arithmetic_2 :
    (gives (small 0 [0x000000000000212c] [(.r1, 0xffffffff), (.r2, 0xffffffff)] []) (1) [(.r1, 0x1), (.r2, 0xffffffff)] [] &&
    gives (small 0 [0xfffffffe00000127] [(.r1, 0x3)] []) (1) [(.r1, 0xfffffffffffffffa)] [] &&
    gives (small 0 [0x000000000000213f] [(.r1, 0xffffffffffffffff), (.r2, 0x2)] []) (1) [(.r1, 0x7fffffffffffffff), (.r2, 0x2)] [] &&
    gives (small 0 [0x000000000000213f] [(.r1, 0x1234), (.r2, 0x0)] []) (1) [(.r1, 0x0), (.r2, 0x0)] [] &&
    gives (small 0 [0x000000000000213c] [(.r1, 0xffffffff00001234), (.r2, 0xffffffff00000000)] []) (1) [(.r1, 0x0), (.r2, 0xffffffff00000000)] [] &&
    gives (small 0 [0x0000000000000137] [(.r1, 0x1234)] []) (1) [(.r1, 0x0)] [] &&
    gives (small 0 [0xffffffff00000134] [(.r1, 0xfffffffffffffffe)] []) (1) [(.r1, 0x0)] [] &&
    gives (small 0 [0xffffffff00000137] [(.r1, 0xfffffffffffffffe)] []) (1) [(.r1, 0x0)] []) = true := by
  decide

/-- V17 to V24. -/
theorem test_arithmetic_3 :
    (gives (small 0 [0x000000000000219f] [(.r1, 0xffffffff00001234), (.r2, 0x0)] []) (1) [(.r1, 0xffffffff00001234), (.r2, 0x0)] [] &&
    gives (small 0 [0x000000000000219c] [(.r1, 0xffffffff00001234), (.r2, 0x0)] []) (1) [(.r1, 0x1234), (.r2, 0x0)] [] &&
    gives (small 0 [0x0000000a00000197] [(.r1, 0xffffffffffffffff)] []) (1) [(.r1, 0x5)] [] &&
    gives (small 0 [0xffffffff00000194] [(.r1, 0xfffffffe)] []) (1) [(.r1, 0xfffffffe)] [] &&
    gives (small 0 [0x0f0f0f0f00000147] [(.r1, 0xf0f0f0f0f0f0f0f0)] []) (1) [(.r1, 0xf0f0f0f0ffffffff)] [] &&
    gives (small 0 [0xfffffff000000147] [(.r1, 0x1)] []) (1) [(.r1, 0xfffffffffffffff1)] [] &&
    gives (small 0 [0x000000000000214c] [(.r1, 0xffffffff00000001), (.r2, 0xffffffff00000002)] []) (1) [(.r1, 0x3), (.r2, 0xffffffff00000002)] [] &&
    gives (small 0 [0xffffff0000000157] [(.r1, 0x123456789abcdef0)] []) (1) [(.r1, 0x123456789abcde00)] []) = true := by
  decide

/-- V25 to V32. -/
theorem test_arithmetic_4 :
    (gives (small 0 [0xffffff0000000154] [(.r1, 0x123456789abcdef0)] []) (1) [(.r1, 0x9abcde00)] [] &&
    gives (small 0 [0x00000000000011af] [(.r1, 0x123456789abcdef0)] []) (1) [(.r1, 0x0)] [] &&
    gives (small 0 [0x0000003f00000167] [(.r1, 0x3)] []) (1) [(.r1, 0x8000000000000000)] [] &&
    gives (small 0 [0x0000000000000167] [(.r1, 0x8000000000000001)] []) (1) [(.r1, 0x8000000000000001)] [] &&
    gives (small 0 [0x0000001f00000164] [(.r1, 0xffffffff00000003)] []) (1) [(.r1, 0x80000000)] [] &&
    gives (small 0 [0x0000000000000164] [(.r1, 0xffffffff00000003)] []) (1) [(.r1, 0x3)] [] &&
    gives (small 0 [0x0000003f00000177] [(.r1, 0x8000000000000000)] []) (1) [(.r1, 0x1)] [] &&
    gives (small 0 [0x0000000100000174] [(.r1, 0xffffffff80000000)] []) (1) [(.r1, 0x40000000)] []) = true := by
  decide

/-- V33 to V40. -/
theorem test_arithmetic_5 :
    (gives (small 0 [0x000000000000217f] [(.r1, 0x8000000000000000), (.r2, 0x4)] []) (1) [(.r1, 0x800000000000000), (.r2, 0x4)] [] &&
    gives (small 0 [0x0000003f000001c7] [(.r1, 0x8000000000000000)] []) (1) [(.r1, 0xffffffffffffffff)] [] &&
    gives (small 0 [0x00000004000001c7] [(.r1, 0x7000000000000000)] []) (1) [(.r1, 0x700000000000000)] [] &&
    gives (small 0 [0x0000001f000001c4] [(.r1, 0x80000000)] []) (1) [(.r1, 0xffffffff)] [] &&
    gives (small 0 [0x00000004000001c4] [(.r1, 0xffffffff70000000)] []) (1) [(.r1, 0x7000000)] [] &&
    gives (small 0 [0xffffffff000001b7] [] []) (1) [(.r1, 0xffffffffffffffff)] [] &&
    gives (small 0 [0xffffffff000001b4] [] []) (1) [(.r1, 0xffffffff)] [] &&
    gives (small 0 [0x000000000000a1bf] [] []) (1) [(.r1, 0x10000)] []) = true := by
  decide

/-- V41 to V47. -/
theorem test_arithmetic_6 :
    (gives (small 0 [0x00000000000021bc] [(.r2, 0x1122334455667788)] []) (1) [(.r2, 0x1122334455667788), (.r1, 0x55667788)] [] &&
    gives (small 0 [0x0000000000000187] [] []) (1) [(.r1, 0xffffffffffffffff)] [] &&
    gives (small 0 [0x0000000500000184] [] []) (1) [(.r1, 0xfffffffa)] [] &&
    gives (small 0 [0x000000000000218f] [(.r2, 0xffffffff)] []) (1) [(.r2, 0xffffffff), (.r1, 0xffffffff00000000)] [] &&
    endsIn (small 0 [0x000000000000120c] [] []) (.uninitRegister .r2)) = true := by
  decide

/-- V48 to V55. -/
theorem test_byte_swap_1 :
    (gives (small 0 [0x00000010000001d4] [(.r1, 0x1122334455667788)] []) (1) [(.r1, 0x7788)] [] &&
    gives (withHostEndian (small 0 [0x00000010000001d4] [(.r1, 0x1122334455667788)] []) .big) (1) [(.r1, 0x8877)] [] &&
    gives (small 0 [0x00000020000001d4] [(.r1, 0x1122334455667788)] []) (1) [(.r1, 0x55667788)] [] &&
    gives (withHostEndian (small 0 [0x00000020000001d4] [(.r1, 0x1122334455667788)] []) .big) (1) [(.r1, 0x88776655)] [] &&
    gives (small 0 [0x00000040000001d4] [(.r1, 0x1122334455667788)] []) (1) [(.r1, 0x1122334455667788)] [] &&
    gives (withHostEndian (small 0 [0x00000040000001d4] [(.r1, 0x1122334455667788)] []) .big) (1) [(.r1, 0x8877665544332211)] [] &&
    gives (small 0 [0x00000010000001dc] [(.r1, 0x1122334455667788)] []) (1) [(.r1, 0x8877)] [] &&
    gives (withHostEndian (small 0 [0x00000010000001dc] [(.r1, 0x1122334455667788)] []) .big) (1) [(.r1, 0x7788)] []) = true := by
  decide

/-- V56 to V59. -/
theorem test_byte_swap_2 :
    (gives (small 0 [0x00000020000001dc] [(.r1, 0x1122334455667788)] []) (1) [(.r1, 0x88776655)] [] &&
    gives (withHostEndian (small 0 [0x00000020000001dc] [(.r1, 0x1122334455667788)] []) .big) (1) [(.r1, 0x55667788)] [] &&
    gives (small 0 [0x00000040000001dc] [(.r1, 0x1122334455667788)] []) (1) [(.r1, 0x8877665544332211)] [] &&
    gives (withHostEndian (small 0 [0x00000040000001dc] [(.r1, 0x1122334455667788)] []) .big) (1) [(.r1, 0x1122334455667788)] []) = true := by
  decide

/-- V62 to V71. -/
theorem test_jump_1 :
    (gives (small 10 [0x0000000000020005] [] []) (13) [] [] &&
    gives (small 10 [0x0000000000000005] [] []) (11) [] [] &&
    gives (small 10 [0xffffffff00020115] [(.r1, 0xffffffffffffffff)] []) (13) [(.r1, 0xffffffffffffffff)] [] &&
    gives (small 10 [0xffffffff00020115] [(.r1, 0xffffffff)] []) (11) [(.r1, 0xffffffff)] [] &&
    gives (small 10 [0xffffffff00020116] [(.r1, 0x12345678ffffffff)] []) (13) [(.r1, 0x12345678ffffffff)] [] &&
    gives (small 10 [0x000000000002211d] [(.r1, 0x5), (.r2, 0x5)] []) (13) [(.r1, 0x5), (.r2, 0x5)] [] &&
    gives (small 10 [0x0000000000020155] [(.r1, 0x100000000)] []) (13) [(.r1, 0x100000000)] [] &&
    gives (small 10 [0x0000000000020156] [(.r1, 0x100000000)] []) (11) [(.r1, 0x100000000)] []) = true := by
  decide

/-- V72 to V79. -/
theorem test_jump_2 :
    (gives (small 10 [0x000000000002212d] [(.r1, 0xffffffffffffffff), (.r2, 0x1)] []) (13) [(.r1, 0xffffffffffffffff), (.r2, 0x1)] [] &&
    gives (small 10 [0x000000000002216d] [(.r1, 0xffffffffffffffff), (.r2, 0x1)] []) (11) [(.r1, 0xffffffffffffffff), (.r2, 0x1)] [] &&
    gives (small 10 [0x000000000002212d] [(.r1, 0x5), (.r2, 0x5)] []) (11) [(.r1, 0x5), (.r2, 0x5)] [] &&
    gives (small 10 [0x000000000002213d] [(.r1, 0x5), (.r2, 0x5)] []) (13) [(.r1, 0x5), (.r2, 0x5)] [] &&
    gives (small 10 [0x00000000000221ad] [(.r1, 0x5), (.r2, 0x5)] []) (11) [(.r1, 0x5), (.r2, 0x5)] [] &&
    gives (small 10 [0x00000000000221bd] [(.r1, 0x5), (.r2, 0x5)] []) (13) [(.r1, 0x5), (.r2, 0x5)] [] &&
    gives (small 10 [0x00000001000201a5] [(.r1, 0x0)] []) (13) [(.r1, 0x0)] [] &&
    gives (small 10 [0xffffffff000201a5] [(.r1, 0x5)] []) (13) [(.r1, 0x5)] []) = true := by
  decide

/-- V80 to V87. -/
theorem test_jump_3 :
    (gives (small 10 [0xffffffff000201a6] [(.r1, 0xffffffff00000005)] []) (13) [(.r1, 0xffffffff00000005)] [] &&
    gives (small 10 [0xffffffff00020165] [(.r1, 0x0)] []) (13) [(.r1, 0x0)] [] &&
    gives (small 10 [0x000000000002217d] [(.r1, 0x8000000000000000), (.r2, 0x8000000000000000)] []) (13) [(.r1, 0x8000000000000000), (.r2, 0x8000000000000000)] [] &&
    gives (small 10 [0x00000000000221cd] [(.r1, 0x8000000000000000), (.r2, 0x7fffffffffffffff)] []) (13) [(.r1, 0x8000000000000000), (.r2, 0x7fffffffffffffff)] [] &&
    gives (small 10 [0x00000000000221ce] [(.r1, 0x80000000), (.r2, 0x7fffffff)] []) (13) [(.r1, 0x80000000), (.r2, 0x7fffffff)] [] &&
    gives (small 10 [0x00000000000221cd] [(.r1, 0x80000000), (.r2, 0x7fffffff)] []) (11) [(.r1, 0x80000000), (.r2, 0x7fffffff)] [] &&
    gives (small 10 [0x00000000000201d5] [(.r1, 0x8000000000000000)] []) (13) [(.r1, 0x8000000000000000)] [] &&
    gives (small 10 [0x00000000000201d6] [(.r1, 0x8000000000000000)] []) (13) [(.r1, 0x8000000000000000)] []) = true := by
  decide

/-- V88 to V98. -/
theorem test_jump_4 :
    (gives (small 10 [0x000000000002217e] [(.r1, 0xffffffff), (.r2, 0x0)] []) (11) [(.r1, 0xffffffff), (.r2, 0x0)] [] &&
    gives (small 10 [0x0000001000020145] [(.r1, 0x30)] []) (13) [(.r1, 0x30)] [] &&
    gives (small 10 [0x0000000f00020145] [(.r1, 0x30)] []) (11) [(.r1, 0x30)] [] &&
    gives (small 10 [0xffffffff00020146] [(.r1, 0x8000000000000000)] []) (11) [(.r1, 0x8000000000000000)] [] &&
    gives (small 10 [0x000000000002214d] [(.r1, 0x0), (.r2, 0xffffffffffffffff)] []) (11) [(.r1, 0x0), (.r2, 0xffffffffffffffff)] [] &&
    gives (small 10 [0x0000000000021a3d] [(.r1, 0x10000)] []) (13) [(.r1, 0x10000)] [] &&
    endsIn (small 10 [0x000000000002211d] [(.r2, 0x0)] []) (.uninitRegister .r1)) = true := by
  decide

/-- V100 to V107. -/
theorem test_load_store_1 :
    (gives (small 0 [0x00000000fff8a171] [] (cells 0xfff8 [0x88, 0x99, 0xaa, 0xbb, 0xcc, 0xdd, 0xee, 0xff])) (1) [(.r1, 0x88)] [] &&
    gives (small 0 [0x00000000fff8a169] [] (cells 0xfff8 [0x88, 0x99, 0xaa, 0xbb, 0xcc, 0xdd, 0xee, 0xff])) (1) [(.r1, 0x9988)] [] &&
    gives (small 0 [0x00000000fff8a161] [] (cells 0xfff8 [0x88, 0x99, 0xaa, 0xbb, 0xcc, 0xdd, 0xee, 0xff])) (1) [(.r1, 0xbbaa9988)] [] &&
    gives (small 0 [0x00000000fff8a179] [] (cells 0xfff8 [0x88, 0x99, 0xaa, 0xbb, 0xcc, 0xdd, 0xee, 0xff])) (1) [(.r1, 0xffeeddccbbaa9988)] [] &&
    gives (withHostEndian (small 0 [0x00000000fff8a171] [] (cells 0xfff8 [0x88, 0x99, 0xaa, 0xbb, 0xcc, 0xdd, 0xee, 0xff])) .big) (1) [(.r1, 0x88)] [] &&
    gives (withHostEndian (small 0 [0x00000000fff8a169] [] (cells 0xfff8 [0x88, 0x99, 0xaa, 0xbb, 0xcc, 0xdd, 0xee, 0xff])) .big) (1) [(.r1, 0x8899)] [] &&
    gives (withHostEndian (small 0 [0x00000000fff8a161] [] (cells 0xfff8 [0x88, 0x99, 0xaa, 0xbb, 0xcc, 0xdd, 0xee, 0xff])) .big) (1) [(.r1, 0x8899aabb)] [] &&
    gives (withHostEndian (small 0 [0x00000000fff8a179] [] (cells 0xfff8 [0x88, 0x99, 0xaa, 0xbb, 0xcc, 0xdd, 0xee, 0xff])) .big) (1) [(.r1, 0x8899aabbccddeeff)] []) = true := by
  decide

/-- V108 to V115. -/
theorem test_load_store_2 :
    (gives (small 0 [0x00000000fff81a73] [(.r1, 0x1122334455667788)] (cells 0xfff8 [0x00, 0x00, 0x00, 0x00, 0x00, 0x00, 0x00, 0x00])) (1) [(.r1, 0x1122334455667788)] (cells 0xfff8 [0x88, 0x00, 0x00, 0x00, 0x00, 0x00, 0x00, 0x00]) &&
    gives (small 0 [0x00000000fff81a6b] [(.r1, 0x1122334455667788)] (cells 0xfff8 [0x00, 0x00, 0x00, 0x00, 0x00, 0x00, 0x00, 0x00])) (1) [(.r1, 0x1122334455667788)] (cells 0xfff8 [0x88, 0x77, 0x00, 0x00, 0x00, 0x00, 0x00, 0x00]) &&
    gives (small 0 [0x00000000fff81a63] [(.r1, 0x1122334455667788)] (cells 0xfff8 [0x00, 0x00, 0x00, 0x00, 0x00, 0x00, 0x00, 0x00])) (1) [(.r1, 0x1122334455667788)] (cells 0xfff8 [0x88, 0x77, 0x66, 0x55, 0x00, 0x00, 0x00, 0x00]) &&
    gives (small 0 [0x00000000fff81a7b] [(.r1, 0x1122334455667788)] (cells 0xfff8 [0x00, 0x00, 0x00, 0x00, 0x00, 0x00, 0x00, 0x00])) (1) [(.r1, 0x1122334455667788)] (cells 0xfff8 [0x88, 0x77, 0x66, 0x55, 0x44, 0x33, 0x22, 0x11]) &&
    gives (withHostEndian (small 0 [0x00000000fff81a73] [(.r1, 0x1122334455667788)] (cells 0xfff8 [0x00, 0x00, 0x00, 0x00, 0x00, 0x00, 0x00, 0x00])) .big) (1) [(.r1, 0x1122334455667788)] (cells 0xfff8 [0x88, 0x00, 0x00, 0x00, 0x00, 0x00, 0x00, 0x00]) &&
    gives (withHostEndian (small 0 [0x00000000fff81a6b] [(.r1, 0x1122334455667788)] (cells 0xfff8 [0x00, 0x00, 0x00, 0x00, 0x00, 0x00, 0x00, 0x00])) .big) (1) [(.r1, 0x1122334455667788)] (cells 0xfff8 [0x77, 0x88, 0x00, 0x00, 0x00, 0x00, 0x00, 0x00]) &&
    gives (withHostEndian (small 0 [0x00000000fff81a63] [(.r1, 0x1122334455667788)] (cells 0xfff8 [0x00, 0x00, 0x00, 0x00, 0x00, 0x00, 0x00, 0x00])) .big) (1) [(.r1, 0x1122334455667788)] (cells 0xfff8 [0x55, 0x66, 0x77, 0x88, 0x00, 0x00, 0x00, 0x00]) &&
    gives (withHostEndian (small 0 [0x00000000fff81a7b] [(.r1, 0x1122334455667788)] (cells 0xfff8 [0x00, 0x00, 0x00, 0x00, 0x00, 0x00, 0x00, 0x00])) .big) (1) [(.r1, 0x1122334455667788)] (cells 0xfff8 [0x11, 0x22, 0x33, 0x44, 0x55, 0x66, 0x77, 0x88])) = true := by
  decide

/-- V116 to V123. -/
theorem test_load_store_3 :
    (gives (small 0 [0xfffffffefff80a72] [] (cells 0xfff8 [0x00, 0x00, 0x00, 0x00, 0x00, 0x00, 0x00, 0x00])) (1) [] (cells 0xfff8 [0xfe, 0x00, 0x00, 0x00, 0x00, 0x00, 0x00, 0x00]) &&
    gives (small 0 [0xfffffffefff80a6a] [] (cells 0xfff8 [0x00, 0x00, 0x00, 0x00, 0x00, 0x00, 0x00, 0x00])) (1) [] (cells 0xfff8 [0xfe, 0xff, 0x00, 0x00, 0x00, 0x00, 0x00, 0x00]) &&
    gives (small 0 [0xfffffffefff80a62] [] (cells 0xfff8 [0x00, 0x00, 0x00, 0x00, 0x00, 0x00, 0x00, 0x00])) (1) [] (cells 0xfff8 [0xfe, 0xff, 0xff, 0xff, 0x00, 0x00, 0x00, 0x00]) &&
    gives (small 0 [0xfffffffefff80a7a] [] (cells 0xfff8 [0x00, 0x00, 0x00, 0x00, 0x00, 0x00, 0x00, 0x00])) (1) [] (cells 0xfff8 [0xfe, 0xff, 0xff, 0xff, 0xff, 0xff, 0xff, 0xff]) &&
    gives (withHostEndian (small 0 [0xfffffffefff80a72] [] (cells 0xfff8 [0x00, 0x00, 0x00, 0x00, 0x00, 0x00, 0x00, 0x00])) .big) (1) [] (cells 0xfff8 [0xfe, 0x00, 0x00, 0x00, 0x00, 0x00, 0x00, 0x00]) &&
    gives (withHostEndian (small 0 [0xfffffffefff80a6a] [] (cells 0xfff8 [0x00, 0x00, 0x00, 0x00, 0x00, 0x00, 0x00, 0x00])) .big) (1) [] (cells 0xfff8 [0xff, 0xfe, 0x00, 0x00, 0x00, 0x00, 0x00, 0x00]) &&
    gives (withHostEndian (small 0 [0xfffffffefff80a62] [] (cells 0xfff8 [0x00, 0x00, 0x00, 0x00, 0x00, 0x00, 0x00, 0x00])) .big) (1) [] (cells 0xfff8 [0xff, 0xff, 0xff, 0xfe, 0x00, 0x00, 0x00, 0x00]) &&
    gives (withHostEndian (small 0 [0xfffffffefff80a7a] [] (cells 0xfff8 [0x00, 0x00, 0x00, 0x00, 0x00, 0x00, 0x00, 0x00])) .big) (1) [] (cells 0xfff8 [0xff, 0xff, 0xff, 0xff, 0xff, 0xff, 0xff, 0xfe])) = true := by
  decide

/-- V146 to V153. -/
theorem test_atomic_1 :
    (gives (small 0 [0x00000000fff81ac3] [(.r1, 0xdeadbeef00000001)] (cells 0xfff8 [0xff, 0xff, 0xff, 0xff, 0x77, 0x77, 0x77, 0x77])) (1) [(.r1, 0xdeadbeef00000001)] (cells 0xfff8 [0x00, 0x00, 0x00, 0x00, 0x77, 0x77, 0x77, 0x77]) &&
    gives (small 0 [0x00000000fff81adb] [(.r1, 0x1)] (cells 0xfff8 [0xff, 0xff, 0xff, 0xff, 0x77, 0x77, 0x77, 0x77])) (1) [(.r1, 0x1)] (cells 0xfff8 [0x00, 0x00, 0x00, 0x00, 0x78, 0x77, 0x77, 0x77]) &&
    gives (small 0 [0x00000001fff81ac3] [(.r1, 0xdeadbeef00000001)] (cells 0xfff8 [0xff, 0xff, 0xff, 0xff, 0x77, 0x77, 0x77, 0x77])) (1) [(.r1, 0xffffffff)] (cells 0xfff8 [0x00, 0x00, 0x00, 0x00, 0x77, 0x77, 0x77, 0x77]) &&
    gives (small 0 [0x00000001fff81adb] [(.r1, 0x1)] (cells 0xfff8 [0xff, 0xff, 0xff, 0xff, 0x77, 0x77, 0x77, 0x77])) (1) [(.r1, 0x77777777ffffffff)] (cells 0xfff8 [0x00, 0x00, 0x00, 0x00, 0x78, 0x77, 0x77, 0x77]) &&
    gives (small 0 [0x00000040fff81adb] [(.r1, 0xff00ff00ff00ff)] (cells 0xfff8 [0x0f, 0x0f, 0x00, 0x00, 0xf0, 0xf0, 0x00, 0x00])) (1) [(.r1, 0xff00ff00ff00ff)] (cells 0xfff8 [0xff, 0x0f, 0xff, 0x00, 0xff, 0xf0, 0xff, 0x00]) &&
    gives (small 0 [0x00000050fff81adb] [(.r1, 0xff00ff00ff00ff)] (cells 0xfff8 [0x0f, 0x0f, 0x00, 0x00, 0xf0, 0xf0, 0x00, 0x00])) (1) [(.r1, 0xff00ff00ff00ff)] (cells 0xfff8 [0x0f, 0x00, 0x00, 0x00, 0xf0, 0x00, 0x00, 0x00]) &&
    gives (small 0 [0x000000a0fff81adb] [(.r1, 0xff00ff00ff00ff)] (cells 0xfff8 [0x0f, 0x0f, 0x00, 0x00, 0xf0, 0xf0, 0x00, 0x00])) (1) [(.r1, 0xff00ff00ff00ff)] (cells 0xfff8 [0xf0, 0x0f, 0xff, 0x00, 0x0f, 0xf0, 0xff, 0x00]) &&
    gives (small 0 [0x00000040fff81ac3] [(.r1, 0xff00ff00ff00ff)] (cells 0xfff8 [0x0f, 0x0f, 0x00, 0x00, 0xf0, 0xf0, 0x00, 0x00])) (1) [(.r1, 0xff00ff00ff00ff)] (cells 0xfff8 [0xff, 0x0f, 0xff, 0x00, 0xf0, 0xf0, 0x00, 0x00])) = true := by
  decide

/-- V154 to V161. -/
theorem test_atomic_2 :
    (gives (small 0 [0x00000050fff81ac3] [(.r1, 0xff00ff00ff00ff)] (cells 0xfff8 [0x0f, 0x0f, 0x00, 0x00, 0xf0, 0xf0, 0x00, 0x00])) (1) [(.r1, 0xff00ff00ff00ff)] (cells 0xfff8 [0x0f, 0x00, 0x00, 0x00, 0xf0, 0xf0, 0x00, 0x00]) &&
    gives (small 0 [0x000000a0fff81ac3] [(.r1, 0xff00ff00ff00ff)] (cells 0xfff8 [0x0f, 0x0f, 0x00, 0x00, 0xf0, 0xf0, 0x00, 0x00])) (1) [(.r1, 0xff00ff00ff00ff)] (cells 0xfff8 [0xf0, 0x0f, 0xff, 0x00, 0xf0, 0xf0, 0x00, 0x00]) &&
    gives (small 0 [0x00000041fff81adb] [(.r1, 0xff00ff00ff00ff)] (cells 0xfff8 [0x0f, 0x0f, 0x00, 0x00, 0xf0, 0xf0, 0x00, 0x00])) (1) [(.r1, 0xf0f000000f0f)] (cells 0xfff8 [0xff, 0x0f, 0xff, 0x00, 0xff, 0xf0, 0xff, 0x00]) &&
    gives (small 0 [0x00000051fff81adb] [(.r1, 0xff00ff00ff00ff)] (cells 0xfff8 [0x0f, 0x0f, 0x00, 0x00, 0xf0, 0xf0, 0x00, 0x00])) (1) [(.r1, 0xf0f000000f0f)] (cells 0xfff8 [0x0f, 0x00, 0x00, 0x00, 0xf0, 0x00, 0x00, 0x00]) &&
    gives (small 0 [0x000000a1fff81adb] [(.r1, 0xff00ff00ff00ff)] (cells 0xfff8 [0x0f, 0x0f, 0x00, 0x00, 0xf0, 0xf0, 0x00, 0x00])) (1) [(.r1, 0xf0f000000f0f)] (cells 0xfff8 [0xf0, 0x0f, 0xff, 0x00, 0x0f, 0xf0, 0xff, 0x00]) &&
    gives (small 0 [0x00000041fff81ac3] [(.r1, 0xff00ff00ff00ff)] (cells 0xfff8 [0x0f, 0x0f, 0x00, 0x00, 0xf0, 0xf0, 0x00, 0x00])) (1) [(.r1, 0xf0f)] (cells 0xfff8 [0xff, 0x0f, 0xff, 0x00, 0xf0, 0xf0, 0x00, 0x00]) &&
    gives (small 0 [0x00000051fff81ac3] [(.r1, 0xff00ff00ff00ff)] (cells 0xfff8 [0x0f, 0x0f, 0x00, 0x00, 0xf0, 0xf0, 0x00, 0x00])) (1) [(.r1, 0xf0f)] (cells 0xfff8 [0x0f, 0x00, 0x00, 0x00, 0xf0, 0xf0, 0x00, 0x00]) &&
    gives (small 0 [0x000000a1fff81ac3] [(.r1, 0xff00ff00ff00ff)] (cells 0xfff8 [0x0f, 0x0f, 0x00, 0x00, 0xf0, 0xf0, 0x00, 0x00])) (1) [(.r1, 0xf0f)] (cells 0xfff8 [0xf0, 0x0f, 0xff, 0x00, 0xf0, 0xf0, 0x00, 0x00])) = true := by
  decide

/-- V162 to V171. -/
theorem test_atomic_3 :
    (gives (small 0 [0x000000e1fff81adb] [(.r1, 0x1122334455667788)] (cells 0xfff8 [0x0f, 0x0f, 0x00, 0x00, 0xf0, 0xf0, 0x00, 0x00])) (1) [(.r1, 0xf0f000000f0f)] (cells 0xfff8 [0x88, 0x77, 0x66, 0x55, 0x44, 0x33, 0x22, 0x11]) &&
    gives (small 0 [0x000000e1fff81ac3] [(.r1, 0x1122334455667788)] (cells 0xfff8 [0x0f, 0x0f, 0x00, 0x00, 0xf0, 0xf0, 0x00, 0x00])) (1) [(.r1, 0xf0f)] (cells 0xfff8 [0x88, 0x77, 0x66, 0x55, 0xf0, 0xf0, 0x00, 0x00]) &&
    gives (small 0 [0x000000f1fff81adb] [(.r0, 0xf0f000000f0f), (.r1, 0x9)] (cells 0xfff8 [0x0f, 0x0f, 0x00, 0x00, 0xf0, 0xf0, 0x00, 0x00])) (1) [(.r0, 0xf0f000000f0f), (.r1, 0x9)] (cells 0xfff8 [0x09, 0x00, 0x00, 0x00, 0x00, 0x00, 0x00, 0x00]) &&
    gives (small 0 [0x000000f1fff81adb] [(.r0, 0x0), (.r1, 0x9)] (cells 0xfff8 [0x0f, 0x0f, 0x00, 0x00, 0xf0, 0xf0, 0x00, 0x00])) (1) [(.r0, 0xf0f000000f0f), (.r1, 0x9)] (cells 0xfff8 [0x0f, 0x0f, 0x00, 0x00, 0xf0, 0xf0, 0x00, 0x00]) &&
    gives (small 0 [0x000000f1fff81ac3] [(.r0, 0xffffffff00000f0f), (.r1, 0x9)] (cells 0xfff8 [0x0f, 0x0f, 0x00, 0x00, 0xf0, 0xf0, 0x00, 0x00])) (1) [(.r0, 0xf0f), (.r1, 0x9)] (cells 0xfff8 [0x09, 0x00, 0x00, 0x00, 0xf0, 0xf0, 0x00, 0x00]) &&
    gives (small 0 [0x000000f1fff81ac3] [(.r0, 0xf0f000000f10), (.r1, 0x9)] (cells 0xfff8 [0x0f, 0x0f, 0x00, 0x00, 0xf0, 0xf0, 0x00, 0x00])) (1) [(.r0, 0xf0f), (.r1, 0x9)] (cells 0xfff8 [0x0f, 0x0f, 0x00, 0x00, 0xf0, 0xf0, 0x00, 0x00]) &&
    endsIn (withAlignPolicy (small 0 [0x00000000fffa1ac3] [(.r1, 0x1)] (cells 0xfff8 [0x0f, 0x0f, 0x00, 0x00, 0xf0, 0xf0, 0x00, 0x00])) .allow) (.misaligned 0xfffa 4 .atomic) &&
    endsIn (small 0 [0x00000000fffc1adb] [(.r1, 0x1)] (cells 0xfff8 [0x0f, 0x0f, 0x00, 0x00, 0xf0, 0xf0, 0x00, 0x00])) (.misaligned 0xfffc 8 .atomic)) = true := by
  decide

/-- V173 to V175. -/
theorem test_atomic_4 :
    (gives (small 0 [0x00000001000011db] [(.r1, 0xfff8)] (cells 0xfff8 [0x0f, 0x0f, 0x00, 0x00, 0xf0, 0xf0, 0x00, 0x00])) (1) [(.r1, 0xf0f000000f0f)] (cells 0xfff8 [0x07, 0x0f, 0x01, 0x00, 0xf0, 0xf0, 0x00, 0x00]) &&
    gives (withHostEndian (small 0 [0x00000001fff81ac3] [(.r1, 0x1)] (cells 0xfff8 [0xff, 0xff, 0xff, 0xff, 0x77, 0x77, 0x77, 0x77])) .big) (1) [(.r1, 0xffffffff)] (cells 0xfff8 [0x00, 0x00, 0x00, 0x00, 0x77, 0x77, 0x77, 0x77])) = true := by
  decide

/-- V176 to V177. -/
theorem test_lddw :
    (gives (small 0 [0x5566778800000118, 0x1122334400000000] [] []) (2) [(.r1, 0x1122334455667788)] [] &&
    gives (small 0 [0xffffffff00000218, 0x0000000000000000] [] []) (2) [(.r2, 0xffffffff)] []) = true := by
  decide

/-! ### Words that are refused: Part 4 of 95_test_vectors.md, up to four a kind (the legacy packet loads decode, log 10) -/

theorem test_refused_words_1 :
    (refuses 0x0000000000000000 (some 0x95) .illegalOpcode &&
    refuses 0x00000001000001e7 (some 0x95) .illegalOpcode &&
    refuses 0x00000010000001d7 (some 0x95) .illegalOpcode &&
    refuses 0x00000010000001df (some 0x95) .illegalOpcode &&
    refuses 0x0000000100002107 (some 0x95) .nonzeroUnusedField &&
    refuses 0x000000010000210f (some 0x95) .nonzeroUnusedField &&
    refuses 0x000000000001210f (some 0x95) .nonzeroUnusedField &&
    refuses 0x00000010000021d4 (some 0x95) .nonzeroUnusedField &&
    refuses 0x0000000100000b07 (some 0x95) .badRegister &&
    refuses 0x000000000000f10f (some 0x95) .badRegister &&
    refuses 0x000000000000c161 (some 0x95) .badRegister &&
    refuses 0x0000000000011c1d (some 0x95) .badRegister &&
    refuses 0xfffffff800000a07 (some 0x95) .writeToR10 &&
    refuses 0x0000000000001abf (some 0x95) .writeToR10 &&
    refuses 0x0000000000001a79 (some 0x95) .writeToR10 &&
    refuses 0x0000004000000adc (some 0x95) .writeToR10) = true := by
  decide

theorem test_refused_words_2 :
    (refuses 0x00000008000001d4 (some 0x95) .badSwapWidth &&
    refuses 0x00000000000001dc (some 0x95) .badSwapWidth &&
    refuses 0x00000080000001dc (some 0x95) .badSwapWidth &&
    refuses 0x00000010fff81adb (some 0x95) .badAtomicOp &&
    refuses 0x000000e0fff81adb (some 0x95) .badAtomicOp &&
    refuses 0x000000f0fff81adb (some 0x95) .badAtomicOp &&
    refuses 0x00000100fff81ac3 (some 0x95) .badAtomicOp &&
    refuses 0x0000000100001118 (some 0x0000000000000000) .unsupportedImm64Kind &&
    refuses 0x0000000100000118 (some 0x0000000000000095) .badPseudoInstruction &&
    refuses 0x0000000100000118 none .truncatedWideInstruction) = true := by
  decide

/-! ### Witnesses: for each obligation with hypotheses, concrete values that meet them all, at boundary values -/

/-- A function with one argument that may write the stack and the shared region: on 1 it faults; otherwise it writes the
first byte of the stack twice, the last one, the last byte of the shared region, and one byte that it may not, reads the
byte at 0xfff8, and returns it plus 9. -/
def helper7 : Helper where
  number   := 7
  nargs    := 1
  mayWrite := [⟨0xfe00, 512⟩, ⟨0x20000, 16⟩]
  body     := .test (.op .eq (.known 0) (.const 1)) .faults
    (.writeByte (.const 0xfe00) (.const 3) (.writeByte (.const 0xfe00) (.const 1) (.writeByte (.const 0xffff) (.const 2)
      (.writeByte (.const 0x2000f) (.const 4) (.writeByte (.const 0xfffffffffffffff0) (.const 5)
        (.readByte (.const 0xfff8) (.returns (.op .add (.known 1) (.const 9)))))))))

/-- What `helper7` has done when it returns. -/
def helper7Run : HelperRun where
  known  := [0, 0x0f]
  writes := [(0xfe00, 3), (0xfe00, 1), (0xffff, 2), (0x2000f, 4)]
  events := [.write .thisRun 0x2000f 1 4]
  draws  := 0

/-- The function of R224's example: the sum of its two arguments. -/
def sumHelper : Helper where
  number   := 7
  nargs    := 2
  mayWrite := []
  body     := .returns (.op .add (.known 0) (.known 1))

/-- A state at a call of `sumHelper`, as in R224's example. -/
def sumState : State :=
  { small 0 [0x0000000700000085] [(.r1, 2), (.r2, 3), (.r6, 0xaa)] [] with
    par := { resetParams with program := [0x0000000700000085], helpers := [sumHelper] } }

/-- R224's example. -/
theorem test_call : gives sumState 1 [(.r0, 5), (.r6, 0xaa)] [] = true ∧
    (match step sumState with | .next t => decide (t.regs.r1 = none ∧ t.regs.r5 = none) | _ => false) = true := by
  decide

/-- A shared region of 16 bytes. -/
def sharedRegion : Region :=
  { base := 0x20000, length := 16, readable := true, writable := true, shared := true, content := none }

/-- A private read-only region of the last 16 bytes of the address space. -/
def topRegion : Region :=
  { base := 0xfffffffffffffff0, length := 16, readable := true, writable := false, shared := false, content := none }

/-- A state at slot `pc` of a program: three regions, one function; R5 and R9 hold no value. -/
def demo (pc : Int) (program : List Word) : State :=
  { State.reset with
    regs := ⟨some 0, some 0, some 0x20000, some 0x8070605040302010, some 0xffffffffffffffff, none, some 31, some 32,
      some 64, none, 0x10000⟩
    pc := pc
    mem := cells 0xfff8 [0x0f, 0x0f, 0x00, 0x00, 0xf0, 0xf0, 0x00, 0x00]
    par := { resetParams with
      program := program
      regions := [resetStack, sharedRegion, topRegion]
      helpers := [helper7] } }

/-- A launch with a region of given content, at the start of the address space, and a shared one. -/
def demoLaunch : Launch :=
  { resetLaunch with
    program := [0x95]
    arg1    := none
    regions := [{ base := 0, length := 2, readable := true, writable := false, shared := false, content := some [0xaa, 0xbb] },
      sharedRegion, topRegion]
    helpers := [helper7] }

/-- Register contents of `demo`. -/
theorem demo_holds (pc : Int) (p : List Word) : Holds (demo pc p) (.gpr .r0) 0 ∧ Holds (demo pc p) (.gpr .r1) 0 ∧
    Holds (demo pc p) (.gpr .r2) 0x20000 ∧ Holds (demo pc p) (.gpr .r3) 0x8070605040302010 ∧
    Holds (demo pc p) (.gpr .r4) 0xffffffffffffffff ∧ HoldsNone (demo pc p) .r5 ∧ Holds (demo pc p) (.gpr .r6) 31 ∧
    Holds (demo pc p) (.gpr .r7) 32 ∧ Holds (demo pc p) (.gpr .r8) 64 ∧ HoldsNone (demo pc p) .r9 ∧
    Holds (demo pc p) .r10 0x10000 :=
  ⟨rfl, rfl, rfl, rfl, rfl, rfl, rfl, rfl, rfl, rfl, rfl⟩

theorem demo_separate : Separate (demo 0 []).par := by
  unfold Separate
  decide

/-- The invariant on `demo`, with an event in the history. -/
theorem demo_inv (pc : Int) (p : List Word) : StateInv { demo pc p with history := [.read .thisRun 0x20008 8 5] } := by
  refine ⟨?_, ?_, ?_⟩
  · show Memory.wf (cells 0xfff8 [0x0f, 0x0f, 0x00, 0x00, 0xf0, 0xf0, 0x00, 0x00]) = true
    decide
  · show ∀ c ∈ cells 0xfff8 [0x0f, 0x0f, 0x00, 0x00, 0xf0, 0xf0, 0x00, 0x00], _
    intro c hc
    refine ⟨?_, resetStack, List.mem_cons_self .., ?_⟩
    · revert c
      decide
    · revert c
      decide
  · intro e he
    obtain rfl := List.mem_singleton.1 he
    exact ⟨sharedRegion, by simp [demo], rfl, by unfold Inside; decide⟩

/-! #### Encoding -/

theorem witness_DecodeOfEncode :
    (Instr.lddw .r9 0xffffffffffffffff).wellFormed .literal = true ∧ (Instr.neg32K .r0 0).wellFormed .negateDst = true ∧
    (Instr.neg64X .r9 .r10).wellFormed .literal = true ∧ (Instr.jleK .r10 (-1) (-32768)).wellFormed .negateDst = true ∧
    (Instr.ldinddw 0xffffffffffffff).wellFormed .literal = true := by
  decide

theorem witness_EncodeOfDecode :
    decode .literal 0xffffffff000009b4 none = .ok (.mov32K .r9 (-1)) ∧
    decode .negateDst 0x0000000000000184 (some 0) = .ok (.neg32K .r1 0) ∧
    decode .literal 0xffffffff00000918 (some 0xffffffff00000000) = .ok (.lddw .r9 0xffffffffffffffff) := by
  decide

theorem witness_IllegalOpcodeRefused :
    (0x0000000000000000 : Word).toNat % 256 ∉ spelledOpcodes ∧ (0xffffffffffffffff : Word).toNat % 256 ∉ spelledOpcodes ∧
    (0xe7 : Word).toNat % 256 ∉ spelledOpcodes := by
  decide

/-- The hypotheses of UnusedFieldRefused. -/
def unusedFieldHyps (w : Word) : Bool :=
  decide (w.toNat % 256 ∈ spelledOpcodes) && decide (w &&& unusedMask (w.toNat % 256) ≠ 0) &&
    decide (w.toNat % 256 = 0x18 → w.toNat / 2 ^ 12 % 16 = 0)

/-- One bit of an unused field each: imm, offset, src_reg, dst_reg, and the offset under opcode 0x18. -/
theorem witness_UnusedFieldRefused : [0x8000000000000095, 0x0000000000010107, 0x0000000000001107, 0x0000000000000105,
    0x0000000080000018].all unusedFieldHyps = true := by
  decide

/-- The hypotheses of BadRegisterRefused. -/
def badRegisterHyps (w : Word) : Bool :=
  decide (w.toNat % 256 ∈ spelledOpcodes) && decide (w.toNat % 256 ∉ legacyOpcodes) &&
    decide (w &&& unusedMask (w.toNat % 256) = 0) &&
    decide (10 < w.toNat / 2 ^ 8 % 16 ∨ 10 < w.toNat / 2 ^ 12 % 16)

theorem witness_BadRegisterRefused : [0x0b07, 0x0f07, 0xb10f, 0xff1d, 0xb161, 0x0b18].all badRegisterHyps = true := by
  decide

/-- The hypotheses of WriteToR10Refused. -/
def writeToR10Hyps (w : Word) : Bool :=
  decide (w.toNat % 256 ∈ spelledOpcodes) && decide (w.toNat % 256 ∉ legacyOpcodes) &&
    decide (w &&& unusedMask (w.toNat % 256) = 0) && decide (w.toNat / 2 ^ 8 % 16 ≤ 10) &&
    decide (w.toNat / 2 ^ 12 % 16 ≤ 10) &&
    decide ((writesDst (w.toNat % 256) = true ∧ w.toNat / 2 ^ 8 % 16 = 10) ∨
      ((w.toNat % 256 = 0xc3 ∨ w.toNat % 256 = 0xdb) ∧ w.toNat / 2 ^ 32 ∈ fetchImms ∧ w.toNat / 2 ^ 12 % 16 = 10))

theorem witness_WriteToR10Refused : [0x0a07, 0xaabf, 0x1a79, 0x0a18, 0x10000000ad4, 0x010000a1c3,
    0xe10000aadb].all writeToR10Hyps = true := by
  decide

/-- The hypotheses of the two clauses of BadSelectorRefused. -/
def badSelectorHyps (w : Word) : Bool × Bool :=
  (decide (w.toNat % 256 = 0xd4 ∨ w.toNat % 256 = 0xdc) && decide (w &&& unusedMask (w.toNat % 256) = 0) &&
      decide (w.toNat / 2 ^ 8 % 16 < 10) && decide (w.toNat / 2 ^ 32 ∉ [16, 32, 64]),
    decide (w.toNat % 256 = 0xc3 ∨ w.toNat % 256 = 0xdb) && decide (w.toNat / 2 ^ 8 % 16 ≤ 10) &&
      decide (w.toNat / 2 ^ 12 % 16 ≤ 10) && decide (w.toNat / 2 ^ 32 ∉ atomicImms))

/-- Among them an imm with the bit of BPF_FETCH that selects nothing, beside src_reg 10 (log 11). -/
theorem witness_BadSelectorRefused :
    [0x00000000000009d4, 0x00000041000000dc].all (fun w => (badSelectorHyps w).1) = true ∧
    [0x000000f00000aac3, 0x000000110000aadb, 0xffffffff000000db].all (fun w => (badSelectorHyps w).2) = true := by
  decide

/-- The hypotheses of WideInstructionChecks about the first word. -/
def wideHyps (w : Word) : Bool :=
  decide (w.toNat % 256 = 0x18) && decide (w &&& 0xFFFFF000 = 0) && decide (w.toNat / 2 ^ 8 % 16 < 10)

theorem witness_WideInstructionChecks :
    ((0x1018 : Word).toNat % 256 = 0x18 ∧ (0x1018 : Word).toNat / 2 ^ 12 % 16 ≠ 0) ∧
    [0x0018, 0xffffffff00000918].all wideHyps = true ∧
    (0x0000000000000001 : Word).toNat % 2 ^ 32 ≠ 0 ∧ (0xffffffff80000000 : Word).toNat % 2 ^ 32 ≠ 0 ∧
    (0x0000000000000000 : Word).toNat % 2 ^ 32 = 0 ∧ (0xffffffff00000000 : Word).toNat % 2 ^ 32 = 0 := by
  decide

/-! #### Steps, outcomes, invariants -/

theorem witness_StepRunsDecoded : Running (demo 1 [0, 0x95]) ∧ 0 ≤ (demo 1 [0, 0x95]).pc ∧
    decodeWords (demo 1 [0, 0x95]).par.negReading ((demo 1 [0, 0x95]).par.program.drop (demo 1 [0, 0x95]).pc.toNat) =
      .ok .exit :=
  ⟨rfl, by decide, by decide⟩

theorem witness_StepRunsEncoded :
    Running (demo 1 [0x95, 0xffffffff00000118, 0, 0x95]) ∧
    (demo 1 [0x95, 0xffffffff00000118, 0, 0x95]).pc = ([0x95] : List Word).length ∧
    (demo 1 [0x95, 0xffffffff00000118, 0, 0x95]).par.program = [0x95] ++ encode (.lddw .r1 0xffffffff) ++ [0x95] ∧
    (Instr.lddw .r1 0xffffffff).wellFormed (demo 1 [0x95, 0xffffffff00000118, 0, 0x95]).par.negReading = true :=
  ⟨rfl, rfl, by decide, by decide⟩

theorem witness_FetchWordRuns : State.reset.par.negReading = .literal ∧ decodeTableWord 64 0x95 = some .exit ∧
    decodeTableWord 128 0x11223344000000005566778800000118 = some (.lddw .r1 0x1122334455667788) := by
  decide

/-- Below and above the program, at the second slot of lddw, and at the first and the last slot. -/
theorem witness_PcRange :
    (Running (demo (-1) [0x95]) ∧ (demo (-1) [0x95]).pc < 0) ∧
    (Running (demo 1 [0x95]) ∧ ((demo 1 [0x95]).par.program.length : Int) ≤ (demo 1 [0x95]).pc) ∧
    (Running (demo 1 [0x118, 0]) ∧ 0 ≤ (demo 1 [0x118, 0]).pc ∧
      (demo 1 [0x118, 0]).par.program[(demo 1 [0x118, 0]).pc.toNat]? = some 0) ∧
    (Running (demo 0 [0x95, 0]) ∧ 0 ≤ (demo 0 [0x95, 0]).pc ∧ (demo 0 [0x95, 0]).pc < ((demo 0 [0x95, 0]).par.program.length : Int)) ∧
    (Running (demo 1 [0x95, 0]) ∧ 0 ≤ (demo 1 [0x95, 0]).pc ∧
      (demo 1 [0x95, 0]).pc < ((demo 1 [0x95, 0]).par.program.length : Int)) :=
  ⟨⟨rfl, by decide⟩, ⟨rfl, by decide⟩, ⟨rfl, by decide, rfl⟩, ⟨rfl, by decide, by decide⟩, ⟨rfl, by decide, by decide⟩⟩

theorem witness_RefusedWordHasNoStep : Running (demo 0 [0xa07]) ∧ 0 ≤ (demo 0 [0xa07]).pc ∧
    (demo 0 [0xa07]).pc < ((demo 0 [0xa07]).par.program.length : Int) ∧
    decodeWords (demo 0 [0xa07]).par.negReading ((demo 0 [0xa07]).par.program.drop (demo 0 [0xa07]).pc.toNat) =
      .error .writeToR10 :=
  ⟨rfl, by decide, by decide, by decide⟩

theorem witness_LegacyRefused : Running (demo 0 [0xffffffffffffff58]) ∧ 0 ≤ (demo 0 [0xffffffffffffff58]).pc ∧
    (demo 0 [0xffffffffffffff58]).par.program[(demo 0 [0xffffffffffffff58]).pc.toNat]? = some 0xffffffffffffff58 ∧
    (0xffffffffffffff58 : Word).toNat % 256 ∈ legacyOpcodes :=
  ⟨rfl, by decide, rfl, by decide⟩

/-- A state with an event and listed bytes, before a store of eight bytes at the bottom of the stack, and before a call
that writes the stack. -/
theorem witness_StepKeepsInv :
    (StateInv { demo 0 [0xfffffffffe000a7a] with history := [.read .thisRun 0x20008 8 5] } ∧
      ∃ t, step { demo 0 [0xfffffffffe000a7a] with history := [.read .thisRun 0x20008 8 5] } = .next t) ∧
    (StateInv { demo 0 [0x0000000700000085] with history := [.read .thisRun 0x20008 8 5] } ∧
      ∃ t, step { demo 0 [0x0000000700000085] with history := [.read .thisRun 0x20008 8 5] } = .next t) :=
  ⟨⟨demo_inv _ _, _, rfl⟩, ⟨demo_inv _ _, _, rfl⟩⟩

theorem witness_LaunchInv : demoLaunch.valid = true := by decide

theorem witness_LaunchState : demoLaunch.valid = true ∧
    { base := 0, length := 2, readable := true, writable := false, shared := false, content := some [0xaa, 0xbb] } ∈
      demoLaunch.regions ∧ 1 < ([0xaa, 0xbb] : List Byte).length ∧
    topRegion ∈ demoLaunch.stack :: demoLaunch.regions ∧ topRegion.content = none ∧ 15 < topRegion.length := by
  decide

theorem witness_LaunchStack : demoLaunch.valid = true := witness_LaunchInv

theorem witness_FramePointerAndParametersConstant :
    (∃ t, step (demo 0 [0x0000000700000085]) = .next t) ∧ ∃ t, step (demo 0 []) = .next t :=
  ⟨⟨_, rfl⟩, _, rfl⟩

theorem witness_FaultsPrecise :
    (∃ t, step (demo 0 []) = .next t ∧ t.out = .faulted (.pcOutOfRange 0)) ∧
    ∃ t, step (demo 0 [0x000000000000950f]) = .next t ∧ t.out = .faulted (.uninitRegister .r5) :=
  ⟨⟨_, rfl, rfl⟩, _, rfl, rfl⟩

theorem witness_OnlyExitEnds :
    (∃ t, step (demo 0 [0x95]) = .next t ∧ t.out = .exited 0) ∧ Holds (demo 0 [0x95]) (.gpr .r0) 0 ∧
    Running (demo 1 [0x95]) ∧ (demo 1 [0x95]).pc = ((demo 1 [0x95]).par.program.length : Int) :=
  ⟨⟨_, rfl, rfl⟩, rfl, rfl, rfl⟩

/-- A jump, a conditional jump taken and not taken, one slot and two slots. -/
theorem witness_Sequencing : Running (demo 0 []) ∧
    (∃ t, exec (.ja (-32768)) (demo 0 []) = .next t ∧ Running t) ∧
    (∃ t, exec (.jeqX .r10 .r10 32767) (demo 0 []) = .next t ∧ Running t) ∧
    (∃ t, exec (.jneX .r10 .r10 32767) (demo 0 []) = .next t ∧ Running t) ∧
    (∃ t, exec (.call 7) (demo 0 []) = .next t ∧ Running t) ∧
    (∃ t, exec (.lddw .r9 0) (demo 0 []) = .next t ∧ Running t) :=
  ⟨rfl, ⟨_, rfl, rfl⟩, ⟨_, rfl, rfl⟩, ⟨_, rfl, rfl⟩, ⟨_, rfl, rfl⟩, ⟨_, rfl, rfl⟩⟩

theorem witness_MemoryFrame :
    (∃ t, exec (.ldxb .r9 .r10 (-1)) (demo 0 []) = .next t) ∧ (profile .literal (.ldxb .r9 .r10 (-1))).kind ∉ [.store, .atomic, .call] ∧
    (∃ t, exec (.lddw .r9 0) (demo 0 []) = .next t) ∧ (profile .literal (.lddw .r9 0)).kind ∉ [.load, .store, .atomic, .call] :=
  ⟨⟨_, rfl⟩, by decide, ⟨_, rfl⟩, by decide⟩

theorem witness_RegisterFrame :
    (∃ t, exec (.call 7) (demo 0 []) = .next t) ∧ (profile .literal (.call 7)).dest ≠ some .r6 ∧ GReg.r6 ∉ argRegs ∧
    (∃ t, exec (.atomicCmpxchg64 .r10 .r10 (-8)) (demo 0 []) = .next t) ∧
    (profile .literal (.atomicCmpxchg64 .r10 .r10 (-8))).dest ≠ some .r1 ∧
    (profile .literal (.atomicCmpxchg64 .r10 .r10 (-8))).kind ≠ .call :=
  ⟨⟨_, rfl⟩, by decide, by decide, ⟨_, rfl⟩, by decide, by decide⟩

/-- The first, the second and the third register that an instruction reads. -/
theorem witness_UninitRegisterFault :
    ((Instr.add64K .r5 1).wellFormed .literal = true ∧ (profile .literal (.add64K .r5 1)).reads = [] ++ .gpr .r5 :: [] ∧
      HoldsNone (demo 0 []) .r5) ∧
    ((Instr.stxdw (.gpr .r1) (.gpr .r9) 0).wellFormed .literal = true ∧
      (profile .literal (.stxdw (.gpr .r1) (.gpr .r9) 0)).reads = [.gpr .r1] ++ .gpr .r9 :: [] ∧
      (∀ r ∈ [Reg.gpr .r1], ∃ v, Holds (demo 0 []) r v) ∧ HoldsNone (demo 0 []) .r9) ∧
    ((Instr.atomicCmpxchg32 .r10 (.gpr .r1) (-8)).wellFormed .literal = true ∧
      (profile .literal (.atomicCmpxchg32 .r10 (.gpr .r1) (-8))).reads = [.r10, .gpr .r1] ++ .gpr .r0 :: [] ∧
      (∀ r ∈ [Reg.r10, .gpr .r1], ∃ v, Holds (small 0 [] [(.r1, 0)] []) r v) ∧ HoldsNone (small 0 [] [(.r1, 0)] []) .r0) :=
  ⟨⟨by decide, rfl, rfl⟩,
   ⟨by decide, rfl, by intro r hr; obtain rfl := List.mem_singleton.1 hr; exact ⟨_, rfl⟩, rfl⟩,
   by decide, rfl, by intro r hr; fin_cases hr <;> exact ⟨_, rfl⟩, rfl⟩

theorem witness_ArithmeticNeverFaults : Running (demo 0 []) ∧ (Instr.div64X .r4 (.gpr .r1)).wellFormed .literal = true ∧
    (∀ r ∈ (profile .literal (.div64X .r4 (.gpr .r1))).reads, ∃ v, Holds (demo 0 []) r v) ∧
    (profile .literal (.div64X .r4 (.gpr .r1))).kind = .arith ∧
    (profile .literal (.ja (-32768))).reads = [] ∧ (profile .literal (.lddw .r5 0)).reads = [] ∧
    (∀ r ∈ (profile .literal (.jsltX .r10 .r10 0)).reads, ∃ v, Holds (demo 0 []) r v) :=
  ⟨rfl, by decide, by intro r hr; fin_cases hr <;> exact ⟨_, rfl⟩, rfl, rfl, rfl,
   by intro r hr; fin_cases hr <;> exact ⟨_, rfl⟩⟩

/-! #### Arithmetic, jumps, call, exit -/

/-- Operands of `ArithForms`: the largest value, 0 (a zero divisor), R10 as source, and the same register twice. -/
theorem witness_arith_operands :
    Holds (demo 0 []) (.gpr .r4) 0xffffffffffffffff ∧ Holds (demo 0 []) (.gpr .r1) 0 ∧ Holds (demo 0 []) .r10 0x10000 :=
  ⟨rfl, rfl, rfl⟩

theorem witness_AddResult : Holds (demo 0 []) (.gpr .r4) 0xffffffffffffffff ∧ Holds (demo 0 []) .r10 0x10000 := ⟨rfl, rfl⟩

theorem witness_SubResult : Holds (demo 0 []) (.gpr .r1) 0 ∧ Holds (demo 0 []) .r10 0x10000 := ⟨rfl, rfl⟩

theorem witness_MulResult : Holds (demo 0 []) (.gpr .r4) 0xffffffffffffffff ∧ Holds (demo 0 []) .r10 0x10000 := ⟨rfl, rfl⟩

theorem witness_DivModResult : Holds (demo 0 []) (.gpr .r4) 0xffffffffffffffff ∧ Holds (demo 0 []) (.gpr .r1) 0 ∧
    Holds (demo 0 []) .r10 0x10000 := witness_arith_operands

theorem witness_BitwiseResult : Holds (demo 0 []) (.gpr .r3) 0x8070605040302010 ∧ Holds (demo 0 []) .r10 0x10000 :=
  ⟨rfl, rfl⟩

theorem witness_MovResult : HoldsNone (demo 0 []) .r9 ∧ Holds (demo 0 []) .r10 0x10000 := ⟨rfl, rfl⟩

theorem witness_NegResult :
    (demo 0 []).par.negReading = .literal ∧ Holds (demo 0 []) .r10 0x10000 ∧
    (withNegReading (demo 0 []) .negateDst).par.negReading = .negateDst ∧
    Holds (withNegReading (demo 0 []) .negateDst) (.gpr .r1) 0 ∧
    Holds (withNegReading (demo 0 []) .negateDst) (.gpr .r3) 0x8070605040302010 ∧
    (0xffffffffffffff8c : Word).toNat % 256 = 0x8c ∧ (0x8f : Word).toNat % 256 = 0x8f ∧
    ((0x0000000100000184 : Word).toNat % 256 = 0x84 ∧ (0x0000000100000184 : Word).toNat / 2 ^ 32 ≠ 0) ∧
    ((0x8000000000000187 : Word).toNat % 256 = 0x87 ∧ (0x8000000000000187 : Word).toNat / 2 ^ 32 ≠ 0) :=
  ⟨rfl, rfl, rfl, rfl, rfl, by decide, by decide, by decide, by decide⟩

/-- Amounts below the width, at it and above it, in each class; each policy. -/
theorem witness_ShiftResult :
    Holds (demo 0 []) (.gpr .r3) 0x8070605040302010 ∧ Holds (demo 0 []) (.gpr .r6) 31 ∧ Holds (demo 0 []) (.gpr .r7) 32 ∧
    Holds (demo 0 []) (.gpr .r8) 64 ∧ Holds (demo 0 []) (.gpr .r4) 0xffffffffffffffff ∧
    (31 : Word).toNat % 2 ^ 32 < 32 ∧ 32 ≤ (32 : Word).toNat % 2 ^ 32 ∧ (32 : Word).toNat < 64 ∧ 64 ≤ (64 : Word).toNat ∧
    (31 : BitVec 32).toNat < 32 ∧ 32 ≤ (32 : BitVec 32).toNat ∧ ((63 : BitVec 32).signExtend 64).toNat < 64 ∧
    64 ≤ ((-1 : BitVec 32).signExtend 64).toNat ∧
    (demo 0 []).par.shiftPolicy = .unspecified ∧ (withShiftPolicy (demo 0 []) .mask).par.shiftPolicy = .mask ∧
    Holds (withShiftPolicy (demo 0 []) .mask) (.gpr .r3) 0x8070605040302010 :=
  ⟨rfl, rfl, rfl, rfl, rfl, by decide, by decide, by decide, by decide, by decide, by decide, by decide, by decide, rfl,
   rfl, rfl⟩

theorem witness_ByteSwapResult : Holds (demo 0 []) (.gpr .r3) 0x8070605040302010 ∧ (demo 0 []).par.hostEndian = .little ∧
    Holds (withHostEndian (demo 0 []) .big) (.gpr .r3) 0x8070605040302010 ∧
    (withHostEndian (demo 0 []) .big).par.hostEndian = .big := ⟨rfl, rfl, rfl, rfl⟩

/-- Operands for which the condition holds and for which it does not. -/
theorem witness_EqualityJumps : Holds (demo 0 []) .r10 0x10000 ∧ Holds (demo 0 []) (.gpr .r1) 0 ∧
    (0x10000 : Word).toNat = (0x10000 : Word).toNat ∧ ¬((0x10000 : Word).toNat = (0 : Word).toNat) ∧
    (∃ b, (0x10000 : Word).getLsbD b = true ∧ (0x10000 : Word).getLsbD b = true) ∧
    ¬(∃ b, (0x10000 : Word).getLsbD b = true ∧ (0 : Word).getLsbD b = true) :=
  ⟨rfl, rfl, rfl, by decide, ⟨16, by decide⟩, by rintro ⟨b, -, h⟩; simp at h⟩

theorem witness_UnsignedJumps : Holds (demo 0 []) (.gpr .r4) 0xffffffffffffffff ∧ Holds (demo 0 []) (.gpr .r1) 0 ∧
    (0xffffffffffffffff : Word).toNat > (0 : Word).toNat ∧ ¬((0 : Word).toNat > (0 : Word).toNat) ∧
    (0 : Word).toNat ≥ (0 : Word).toNat ∧ ¬((0 : Word).toNat ≥ (0xffffffffffffffff : Word).toNat) :=
  ⟨rfl, rfl, by decide, by decide, by decide, by decide⟩

theorem witness_SignedJumps : Holds (demo 0 []) (.gpr .r4) 0xffffffffffffffff ∧ Holds (demo 0 []) (.gpr .r1) 0 ∧
    (0 : Word).toInt > (0xffffffffffffffff : Word).toInt ∧ ¬((0xffffffffffffffff : Word).toInt > (0 : Word).toInt) ∧
    (0 : Word).toInt ≥ (0 : Word).toInt ∧ ¬((0xffffffffffffffff : Word).toInt ≥ (0 : Word).toInt) :=
  ⟨rfl, rfl, by decide, by decide, by decide, by decide⟩

/-- A byte written twice, one at each end of a region, one not written; and R224's example. -/
theorem witness_CallReturns : (findHelper (demo 0 []).par 7 = some helper7 ∧
      List.Forall₂ (fun g v => Holds (demo 0 []) (.gpr g) v) (argRegs.take helper7.nargs.val) [0] ∧
      (demo 0 []).helperCall helper7 [0] = some (0x18, helper7Run) ∧
      (∀ c ∈ helper7Run.writes, c.1 ≠ 0xfe01) ∧
      helper7Run.writes = [(0xfe00, 3)] ++ (0xfe00, 1) :: [(0xffff, 2), (0x2000f, 4)] ∧
      (∀ c ∈ ([(0xffff, 2), (0x2000f, 4)] : List Host.Cell), c.1 ≠ 0xfe00)) ∧
    (findHelper sumState.par 7 = some sumHelper ∧ sumHelper.nargs = 2 ∧
      sumHelper.body = .returns (.op .add (.known 0) (.known 1)) ∧ Holds sumState (.gpr .r1) 2 ∧
      Holds sumState (.gpr .r2) 3) :=
  ⟨⟨by decide, .cons rfl .nil, by decide, by decide, rfl, by decide⟩, by decide, rfl, rfl, rfl, rfl⟩

theorem witness_CallFaults :
    (∀ h ∈ (demo 0 []).par.helpers, h.number ≠ 8) ∧
    (findHelper { (demo 0 []).par with helpers := [{ helper7 with nargs := 5 }] } 7 = some { helper7 with nargs := 5 } ∧
      argRegs.take 5 = [.r1, .r2, .r3, .r4] ++ .r5 :: [] ∧ (∀ r ∈ [GReg.r1, .r2, .r3, .r4], ∃ v, Holds (demo 0 []) (.gpr r) v) ∧
      HoldsNone (demo 0 []) .r5) ∧
    (findHelper (demo 0 []).par 7 = some helper7 ∧
      List.Forall₂ (fun g v => Holds { demo 0 [] with regs := registers [(.r1, 1)] } (.gpr g) v)
        (argRegs.take helper7.nargs.val) [1] ∧
      State.helperCall { demo 0 [] with regs := registers [(.r1, 1)] } helper7 [1] = none) :=
  ⟨by decide, ⟨by decide, rfl, by intro r hr; fin_cases hr <;> exact ⟨_, rfl⟩, rfl⟩, by decide, .cons rfl .nil, by decide⟩

theorem witness_ExitResult : Holds (demo 0 []) (.gpr .r0) 0 ∧ HoldsNone (small 0 [] [] []) .r0 := ⟨rfl, rfl⟩

/-! #### Memory -/

/-- The last byte and the first eight bytes of the stack, from R10. -/
theorem demo_stack_access (kind : AccessKind) : Access (demo 0 []).par kind resetStack (effAddr 0x10000 (-512)) 8 ∧
    Access (demo 0 []).par kind resetStack (effAddr 0x10000 (-4)) 4 ∧
    Access (demo 0 []).par kind resetStack (effAddr 0x10000 (-1)) 1 := by
  refine ⟨⟨demo_separate, List.mem_cons_self .., by unfold Inside; decide, ?_, .inl (by decide)⟩,
    ⟨demo_separate, List.mem_cons_self .., by unfold Inside; decide, ?_, .inl (by decide)⟩,
    ⟨demo_separate, List.mem_cons_self .., by unfold Inside; decide, ?_, .inl (by decide)⟩⟩ <;>
  cases kind <;> first | rfl | exact ⟨rfl, rfl⟩

/-- The last eight bytes of the shared region, from R2. -/
theorem demo_shared_access (kind : AccessKind) : Access (demo 0 []).par kind sharedRegion (effAddr 0x20000 8) 8 := by
  refine ⟨demo_separate, List.mem_cons_of_mem _ (List.mem_cons_self ..), by unfold Inside; decide, ?_, .inl (by decide)⟩
  cases kind <;> first | rfl | exact ⟨rfl, rfl⟩

/-- The last byte of the address space, from R4, and eight misaligned bytes under the policy `allow`. -/
theorem demo_top_access : Access (demo 0 []).par .read topRegion (effAddr 0xffffffffffffffff 0) 1 ∧
    Access (withAlignPolicy (demo 0 []) .allow).par .read topRegion (effAddr 0xffffffffffffffff (-8)) 8 :=
  ⟨⟨demo_separate, List.mem_cons_of_mem _ (List.mem_cons_of_mem _ (List.mem_cons_self ..)), by unfold Inside; decide, rfl,
    .inl (by decide)⟩,
   ⟨demo_separate, List.mem_cons_of_mem _ (List.mem_cons_of_mem _ (List.mem_cons_self ..)), by unfold Inside; decide, rfl,
    .inr ⟨rfl, by decide⟩⟩⟩

theorem witness_LoadResult : Holds (demo 0 []) .r10 0x10000 ∧
    Access (demo 0 []).par .read resetStack (effAddr 0x10000 (-512)) Size.dw.bytes ∧
    Access (demo 0 []).par .read resetStack (effAddr 0x10000 (-1)) Size.b.bytes ∧
    Holds (demo 0 []) (.gpr .r2) 0x20000 ∧ Access (demo 0 []).par .read sharedRegion (effAddr 0x20000 8) Size.dw.bytes ∧
    Holds (demo 0 []) (.gpr .r4) 0xffffffffffffffff ∧
    Access (demo 0 []).par .read topRegion (effAddr 0xffffffffffffffff 0) Size.b.bytes :=
  ⟨rfl, (demo_stack_access .read).1, (demo_stack_access .read).2.2, rfl, demo_shared_access .read, rfl, demo_top_access.1⟩

theorem witness_StoreResult : Holds (demo 0 []) .r10 0x10000 ∧ Holds (demo 0 []) (.gpr .r3) 0x8070605040302010 ∧
    Access (demo 0 []).par .write resetStack (effAddr 0x10000 (-512)) Size.dw.bytes ∧
    Access (demo 0 []).par .write resetStack (effAddr 0x10000 (-1)) Size.b.bytes ∧
    Holds (demo 0 []) (.gpr .r2) 0x20000 ∧ Access (demo 0 []).par .write sharedRegion (effAddr 0x20000 8) Size.dw.bytes :=
  ⟨rfl, rfl, (demo_stack_access .write).1, (demo_stack_access .write).2.2, rfl, demo_shared_access .write⟩

/-- A wrap past the top, a misaligned address, an address just above the stack, and a store to a read-only region. -/
theorem witness_AccessFaults :
    (Holds (demo 0 []) (.gpr .r4) 0xffffffffffffffff ∧ ∀ kind, AccessFault (demo 0 []).par kind
      (effAddr 0xffffffffffffffff 0) Size.h.bytes (.memAccess 0xffffffffffffffff 2 kind)) ∧
    (Holds (demo 0 []) .r10 0x10000 ∧ ∀ kind, AccessFault (demo 0 []).par kind
      (effAddr 0x10000 (-511)) AtomicSize.dw.bytes (.misaligned 0xfe01 8 kind)) ∧
    (∀ kind, AccessFault (demo 0 []).par kind (effAddr 0x10000 0) Size.w.bytes (.memAccess 0x10000 4 kind)) ∧
    AccessFault (demo 0 []).par .write (effAddr 0xffffffffffffffff 0) Size.b.bytes (.memAccess 0xffffffffffffffff 1 .write) ∧
    AccessFault (withAlignPolicy (demo 0 []) .allow).par .atomic (effAddr 0x10000 (-511)) AtomicSize.w.bytes
      (.misaligned 0xfe01 4 .atomic) := by
  refine ⟨⟨rfl, fun kind => .inl ⟨by decide, rfl⟩⟩, ⟨rfl, fun kind => .inr (.inl ⟨by decide, ?_, rfl⟩)⟩,
    fun kind => .inr (.inr ⟨by decide, .inl (by decide), ?_, rfl⟩), .inr (.inr ⟨by decide, .inl (by decide), ?_, rfl⟩),
    .inr (.inl ⟨by decide, ?_, rfl⟩)⟩
  · rintro (h | ⟨h, -⟩)
    · exact absurd h (by decide)
    · exact absurd h (by decide)
  · intro r hr hi
    exfalso
    revert hi
    unfold Inside
    revert r
    decide
  · intro r hr hi hw
    revert hi hw
    unfold Inside Granting
    revert r
    decide
  · rintro (h | ⟨-, h⟩)
    · exact absurd h (by decide)
    · exact h rfl

theorem witness_StoreThenLoad : Holds (demo 0 []) .r10 0x10000 ∧ Holds (demo 0 []) (.gpr .r3) 0x8070605040302010 ∧
    resetStack.shared = false ∧ resetStack.readable = true ∧
    Access (demo 0 []).par .write resetStack (effAddr 0x10000 (-512)) Size.dw.bytes ∧
    Access (demo 0 []).par .write resetStack (effAddr 0x10000 (-1)) Size.b.bytes :=
  ⟨rfl, rfl, rfl, rfl, (demo_stack_access .write).1, (demo_stack_access .write).2.2⟩

theorem witness_MixedWidth : resetStack.shared = false ∧ resetStack.readable = true ∧ (0xfe00 : Word).toNat % 8 = 0 ∧
    Access (demo 0 []).par .write resetStack 0xfe00 8 ∧ (demo 0 []).par.hostEndian = .little ∧
    Access (withHostEndian (demo 0 []) .big).par .write resetStack 0xfe00 8 ∧
    (withHostEndian (demo 0 []) .big).par.hostEndian = .big := by
  have h := (demo_stack_access .write).1
  rw [show effAddr 0x10000 (-512) = 0xfe00 from rfl] at h
  exact ⟨rfl, rfl, by decide, h, rfl, ⟨h.separate, h.region, h.inside, h.granted, h.aligned⟩, rfl⟩

theorem witness_AtomicSimple : Holds (demo 0 []) .r10 0x10000 ∧ Holds (demo 0 []) (.gpr .r3) 0x8070605040302010 ∧
    Access (demo 0 []).par .atomic resetStack (effAddr 0x10000 (-512)) AtomicSize.dw.bytes ∧
    Access (demo 0 []).par .atomic resetStack (effAddr 0x10000 (-4)) AtomicSize.w.bytes ∧
    Holds (demo 0 []) (.gpr .r2) 0x20000 ∧
    Access (demo 0 []).par .atomic sharedRegion (effAddr 0x20000 8) AtomicSize.dw.bytes :=
  ⟨rfl, rfl, (demo_stack_access .atomic).1, (demo_stack_access .atomic).2.1, rfl, demo_shared_access .atomic⟩

/-- Also with one register as base and source. -/
theorem witness_AtomicFetch : Holds (demo 0 []) .r10 0x10000 ∧ Holds (demo 0 []) (.gpr .r3) 0x8070605040302010 ∧
    Access (demo 0 []).par .atomic resetStack (effAddr 0x10000 (-4)) AtomicSize.w.bytes ∧
    Holds (demo 0 []) (.gpr .r2) 0x20000 ∧
    Access (demo 0 []).par .atomic sharedRegion (effAddr 0x20000 8) AtomicSize.dw.bytes :=
  ⟨rfl, rfl, (demo_stack_access .atomic).2.1, rfl, demo_shared_access .atomic⟩

theorem witness_AtomicExchange : Holds (demo 0 []) .r10 0x10000 ∧ Holds (demo 0 []) (.gpr .r3) 0x8070605040302010 ∧
    Access (demo 0 []).par .atomic resetStack (effAddr 0x10000 (-4)) AtomicSize.w.bytes ∧
    Access (demo 0 []).par .atomic resetStack (effAddr 0x10000 (-512)) AtomicSize.dw.bytes :=
  ⟨rfl, rfl, (demo_stack_access .atomic).2.1, (demo_stack_access .atomic).1⟩

/-- The four bytes at 0xfff8 are 0x0f0f, at 0xfffc 0xf0f0: equal to R0 in the first register file only. -/
theorem witness_AtomicCompareExchange :
    (Holds (demo 0 []) .r10 0x10000 ∧ Holds (demo 0 []) (.gpr .r3) 0x8070605040302010 ∧ Holds (demo 0 []) (.gpr .r0) 0 ∧
      Access (demo 0 []).par .atomic resetStack (effAddr 0x10000 (-4)) AtomicSize.w.bytes ∧
      (demo 0 []).accessValue resetStack (effAddr 0x10000 (-4)) 4 ≠ (0 : Word).toNat % 256 ^ 4) ∧
    (Holds { demo 0 [] with regs := registers [(.r0, 0xf0f0), (.r3, 1)] } (.gpr .r0) 0xf0f0 ∧
      Holds { demo 0 [] with regs := registers [(.r0, 0xf0f0), (.r3, 1)] } (.gpr .r3) 1 ∧
      Access (demo 0 []).par .atomic resetStack (effAddr 0x10000 (-4)) AtomicSize.w.bytes ∧
      State.accessValue { demo 0 [] with regs := registers [(.r0, 0xf0f0), (.r3, 1)] } resetStack (effAddr 0x10000 (-4)) 4 =
        (0xf0f0 : Word).toNat % 256 ^ 4) :=
  ⟨⟨rfl, rfl, rfl, (demo_stack_access .atomic).2.1, by decide⟩, rfl, rfl, (demo_stack_access .atomic).2.1, by decide⟩

theorem witness_AlignmentCheck :
    ((0xfe01 : Word).toNat + 8 ≤ 2 ^ 64 ∧ (0xfe01 : Word).toNat % 8 ≠ 0) ∧
    ((0xfffffffffffffff7 : Word).toNat + 8 ≤ 2 ^ 64 ∧ (0xfffffffffffffff7 : Word).toNat % 8 ≠ 0) ∧
    ((0xfffffffffffffffd : Word).toNat + 2 ≤ 2 ^ 64 ∧ (0xfffffffffffffffd : Word).toNat % 2 ≠ 0) := by
  decide

end Sys2Proof.Tests
end

section
/-! The statements about state and registers (10_state.md). Decoding by format, the inversion of `exec` and `step`, and the
memory of a launch; the settled statements stand at the end. -/

namespace Sys2Proof

open Machine

/-! ### The format of an opcode -/

/-- The format of R79 that an opcode decodes by under `NEG_READING = literal`: its mask of unused bits, whether it writes
dst_reg, and the decoder. -/
inductive HasFormat (f : Fields) (second : Option Word) : Word → Bool → Decoded → Prop where
  | aluK (c) : HasFormat f second 0xFFFFF000 true (decodeAluK f c)
  | aluX (c) : HasFormat f second 0xFFFFFFFFFFFF0000 true (decodeAluX f c)
  | byteSwap (c16 c32 c64) : HasFormat f second 0xFFFFF000 true (decodeEnd f c16 c32 c64)
  | ja : HasFormat f second 0xFFFFFFFF0000FF00 false (decodeJa f)
  | jcondK (c) : HasFormat f second 0xF000 false (decodeJcondK f c)
  | twoRead (c) : HasFormat f second 0xFFFFFFFF00000000 false (decodeTwoRead f c)
  | call : HasFormat f second 0xFFFFFF00 false (decodeCall f)
  | exit : HasFormat f second 0xFFFFFFFFFFFFFF00 false (decodeExit f)
  | ldx (c) : HasFormat f second 0xFFFFFFFF00000000 true (decodeLdx f c)
  | st (c) : HasFormat f second 0xF000 false (decodeSt f c)
  | atomic32 : HasFormat f second 0 false (decodeAtomic32 f)
  | atomic64 : HasFormat f second 0 false (decodeAtomic64 f)
  | lddw : HasFormat f second 0xFFFFF000 true (decodeLddw f second)

/-- Every opcode that spells an instruction other than a legacy load has a format (R79, R80). -/
theorem decodeFields_format (f : Fields) (second : Option Word) (hs : f.opcode.toNat ∈ spelledOpcodes)
    (hl : f.opcode.toNat ∉ legacyOpcodes) :
    HasFormat f second (unusedMask f.opcode.toNat) (writesDst f.opcode.toNat) (decodeFields .literal f second) := by
  have h : f.opcode.toNat ∈ spelledOpcodes.filter fun o => decide (o ∉ legacyOpcodes) :=
    List.mem_filter.2 ⟨hs, decide_eq_true hl⟩
  unfold decodeFields
  generalize f.opcode.toNat = n at h
  fin_cases h <;> constructor

/-! ### The fields of a word as numbers -/

@[simp] theorem Fields.toNat_opcode_ofWord (w : Word) : (Fields.ofWord w).opcode.toNat = w.toNat % 256 := by
  simp [Fields.ofWord]

@[simp] theorem Fields.toNat_dst_ofWord (w : Word) : (Fields.ofWord w).dst.toNat = w.toNat / 2 ^ 8 % 16 := by
  simp [Fields.ofWord, Nat.shiftRight_eq_div_pow]

@[simp] theorem Fields.toNat_src_ofWord (w : Word) : (Fields.ofWord w).src.toNat = w.toNat / 2 ^ 12 % 16 := by
  simp [Fields.ofWord, Nat.shiftRight_eq_div_pow]

@[simp] theorem Fields.toNat_imm_ofWord (w : Word) : (Fields.ofWord w).imm.toNat = w.toNat / 2 ^ 32 := by
  have := w.isLt
  simp only [Fields.ofWord, BitVec.extractLsb'_toNat, Nat.shiftRight_eq_div_pow]
  omega

/-- Bits that a mask covers and that are zero under it are zero. -/
theorem extractLsb'_eq_zero_of_and {w m : Word} {a n : Nat} (h : w &&& m = 0)
    (hm : m.extractLsb' a n = BitVec.allOnes n) : w.extractLsb' a n = 0 := by
  have := congrArg (BitVec.extractLsb' a n) h
  rw [BitVec.extractLsb'_and, hm, BitVec.and_allOnes] at this
  rw [this]; simp

/-! ### Writing R10 -/

/-- A field from 0 to 10 names a register (R83). -/
theorem usedReg_of_le {b : BitVec 4} (h : b.toNat ≤ 10) : ∃ r, ∀ k, usedReg b k = k r := by
  cases hr : regOfField b with
  | none => exact absurd (regOfField_none.1 hr) (by omega)
  | some r => exact ⟨r, fun k => by rw [usedReg, hr]⟩

/-- Field 10 names the frame pointer (R83). -/
theorem usedReg_ten {b : BitVec 4} (h : b.toNat = 10) (k : Reg → Decoded) : usedReg b k = k .r10 := by
  rw [usedReg, regOfField_r10.2 (BitVec.eq_of_toNat_eq h)]

/-- A fetching atomic operation with R10 in src_reg (R86, R252). -/
theorem decodeAtomicFetch_src_ten {f : Fields} {c : Reg → GReg → BitVec 16 → Instr} (hd : f.dst.toNat ≤ 10)
    (hs : f.src.toNat = 10) : decodeAtomicFetch f c = .error .writeToR10 := by
  obtain ⟨r, hr⟩ := usedReg_of_le hd
  rw [decodeAtomicFetch, hr, usedReg_ten hs]; rfl

/-- A format that writes dst_reg, with its unused fields zero and 10 in dst_reg (R86). -/
theorem HasFormat.dst_ten {w m : Word} {second : Option Word} {d : Decoded}
    (hf : HasFormat (Fields.ofWord w) second m true d) (hm : w &&& m = 0) (hd : (Fields.ofWord w).dst.toNat = 10)
    (hs : (Fields.ofWord w).src.toNat ≤ 10) : d = .error .writeToR10 := by
  obtain ⟨r, hr⟩ := usedReg_of_le hs
  have zero : ∀ {a n}, m.extractLsb' a n = BitVec.allOnes n → w.extractLsb' a n = 0 := extractLsb'_eq_zero_of_and hm
  have imm : m.extractLsb' 32 32 = BitVec.allOnes 32 → (Fields.ofWord w).imm = 0 := zero
  have off : m.extractLsb' 16 16 = BitVec.allOnes 16 → (Fields.ofWord w).off = 0 := zero
  have src : m.extractLsb' 12 4 = BitVec.allOnes 4 → (Fields.ofWord w).src = 0 := zero
  cases hf with
  | aluK c => simp [decodeAluK, src rfl, off rfl, usedReg_ten hd, writtenReg]
  | aluX c => simp [decodeAluX, off rfl, imm rfl, usedReg_ten hd, hr, writtenReg]
  | byteSwap c16 c32 c64 => simp [decodeEnd, src rfl, off rfl, usedReg_ten hd, writtenReg]
  | ldx c => simp [decodeLdx, imm rfl, usedReg_ten hd, hr, writtenReg]
  | lddw => simp [decodeLddw, src rfl, off rfl, usedReg_ten hd, writtenReg]

/-- A word of the atomic class that selects a fetching operation, with R10 in src_reg (R86, R250). -/
theorem decodeFields_fetch_src_ten {f : Fields} (second : Option Word)
    (ho : f.opcode.toNat = 0xc3 ∨ f.opcode.toNat = 0xdb) (hi : f.imm.toNat ∈ fetchImms) (hd : f.dst.toNat ≤ 10)
    (hs : f.src.toNat = 10) : decodeFields .literal f second = .error .writeToR10 := by
  have key : decodeAtomic32 f = .error .writeToR10 ∧ decodeAtomic64 f = .error .writeToR10 := by
    unfold decodeAtomic32 decodeAtomic64
    generalize f.imm.toNat = n at hi
    fin_cases hi <;> exact ⟨decodeAtomicFetch_src_ten hd hs, decodeAtomicFetch_src_ten hd hs⟩
  unfold decodeFields
  rcases ho with ho | ho <;> rw [ho]
  · exact key.1
  · exact key.2

/-! ### Opcode 0x00 -/

/-- Opcode 0x00 spells nothing, whatever the other fields (R84). -/
theorem decode_of_opcode_zero (neg : NegReading) {w : Word} (second : Option Word) (h : w.toNat % 256 = 0) :
    decode neg w second = .error .illegalOpcode := by
  have ho : (Fields.ofWord w).opcode.toNat = 0 := by simpa using h
  unfold decode decodeFields; rw [ho]; rfl

end Sys2Proof

namespace Sys2Proof.Machine

/-! ### Instructions by their shared operation -/

/-- A shared operation of Sys2Proof/Machine/Ops.lean with its operands. Every instruction is one of them, so a fact about all
146 rows is a fact about these 28. -/
inductive Shape where
  | alu32K (f : BitVec 32 → BitVec 32 → BitVec 32) (dst : GReg) (imm : BitVec 32)
  | alu32X (f : BitVec 32 → BitVec 32 → BitVec 32) (dst : GReg) (src : Reg)
  | alu64K (f : Word → Word → Word) (dst : GReg) (imm : BitVec 32)
  | alu64X (f : Word → Word → Word) (dst : GReg) (src : Reg)
  | shift32K (op : BitVec 32 → Nat → BitVec 32) (dst : GReg) (imm : BitVec 32)
  | shift32X (op : BitVec 32 → Nat → BitVec 32) (dst : GReg) (src : Reg)
  | shift64K (op : Word → Nat → Word) (dst : GReg) (imm : BitVec 32)
  | shift64X (op : Word → Nat → Word) (dst : GReg) (src : Reg)
  | writeK (f : BitVec 32 → Word) (dst : GReg) (imm : BitVec 32)
  | writeX (f : Word → Word) (dst : GReg) (src : Reg)
  | negK (complement : BitVec 32 → Word) (negate : Word → Word) (dst : GReg) (imm : BitVec 32)
  | negX (complement : Word → Word) (dst : GReg) (src : Reg)
  | endSwap (target : Endian) (n : Nat) (dst : GReg)
  | ja (off : BitVec 16)
  | jump64K (c : Word → Word → Bool) (dst : Reg) (imm : BitVec 32) (off : BitVec 16)
  | jump64X (c : Word → Word → Bool) (dst src : Reg) (off : BitVec 16)
  | jump32K (c : BitVec 32 → BitVec 32 → Bool) (dst : Reg) (imm : BitVec 32) (off : BitVec 16)
  | jump32X (c : BitVec 32 → BitVec 32 → Bool) (dst src : Reg) (off : BitVec 16)
  | call (imm : BitVec 32)
  | exit
  | storeReg (sz : Size) (dst src : Reg) (off : BitVec 16)
  | storeImm (sz : Size) (dst : Reg) (off : BitVec 16) (imm : BitVec 32)
  | load (sz : Size) (dst : GReg) (src : Reg) (off : BitVec 16)
  | atomicPlain (sz : Size) (f : Word → Word → Word) (dst src : Reg) (off : BitVec 16)
  | atomicFetch (sz : Size) (f : Word → Word → Word) (dst : Reg) (src : GReg) (off : BitVec 16)
  | atomicCmpxchg (sz : Size) (dst src : Reg) (off : BitVec 16)
  | lddw (dst : GReg) (imm64 : Word)
  | legacy

/-- What the operation does: `exec_eq_run` ties it to `exec`. -/
def Shape.run : Shape → State → Result
  | .alu32K f dst imm => Machine.alu32K f dst imm
  | .alu32X f dst src => Machine.alu32X f dst src
  | .alu64K f dst imm => Machine.alu64K f dst imm
  | .alu64X f dst src => Machine.alu64X f dst src
  | .shift32K op dst imm => Machine.shift32K op dst imm
  | .shift32X op dst src => Machine.shift32X op dst src
  | .shift64K op dst imm => Machine.shift64K op dst imm
  | .shift64X op dst src => Machine.shift64X op dst src
  | .writeK f dst imm => Machine.writeK f dst imm
  | .writeX f dst src => Machine.writeX f dst src
  | .negK complement negate dst imm => Machine.negK complement negate dst imm
  | .negX complement dst src => Machine.negX complement dst src
  | .endSwap target n dst => Machine.endSwap target n dst
  | .ja off => execJa off
  | .jump64K c dst imm off => Machine.jump64K c dst imm off
  | .jump64X c dst src off => Machine.jump64X c dst src off
  | .jump32K c dst imm off => Machine.jump32K c dst imm off
  | .jump32X c dst src off => Machine.jump32X c dst src off
  | .call imm => callFunction imm
  | .exit => exitProgram
  | .storeReg sz dst src off => Machine.storeReg sz dst src off
  | .storeImm sz dst off imm => Machine.storeImm sz dst off imm
  | .load sz dst src off => loadReg sz dst src off
  | .atomicPlain sz f dst src off => Machine.atomicPlain sz f dst src off
  | .atomicFetch sz f dst src off => Machine.atomicFetch sz f dst src off
  | .atomicCmpxchg sz dst src off => Machine.atomicCmpxchg sz dst src off
  | .lddw dst imm64 => execLddw dst imm64
  | .legacy => fun _ => .refused (.word .legacyPacketAccess)

/-- The row of R25 of the operation: `profile_eq` ties it to `profile`. -/
def Shape.profile (neg : NegReading) : Shape → Profile
  | .alu32K _ dst _ | .alu64K _ dst _ | .shift32K _ dst _ | .shift64K _ dst _ | .endSwap _ _ dst =>
    ⟨.arith, [.gpr dst], some dst⟩
  | .alu32X _ dst src | .alu64X _ dst src | .shift32X _ dst src | .shift64X _ dst src =>
    ⟨.arith, [.gpr dst, src], some dst⟩
  | .writeK _ dst _ => ⟨.arith, [], some dst⟩
  | .writeX _ dst src | .negX _ dst src => ⟨.arith, [src], some dst⟩
  | .negK _ _ dst _ => ⟨.arith, if neg = .literal then [] else [.gpr dst], some dst⟩
  | .ja off => ⟨.jump off, [], none⟩
  | .jump64K _ dst _ off | .jump32K _ dst _ off => ⟨.conditional off, [dst], none⟩
  | .jump64X _ dst src off | .jump32X _ dst src off => ⟨.conditional off, [dst, src], none⟩
  | .call _ => ⟨.call, [], some .r0⟩
  | .exit => ⟨.exit, [.gpr .r0], none⟩
  | .storeReg _ dst src _ => ⟨.store, [dst, src], none⟩
  | .storeImm _ dst _ _ => ⟨.store, [dst], none⟩
  | .load _ dst src _ => ⟨.load, [src], some dst⟩
  | .atomicPlain _ _ dst src _ => ⟨.atomic, [dst, src], none⟩
  | .atomicFetch _ _ dst src _ => ⟨.atomic, [dst, .gpr src], some src⟩
  | .atomicCmpxchg _ dst src _ => ⟨.atomic, [dst, src, .gpr .r0], some .r0⟩
  | .lddw dst _ => ⟨.wide, [], some dst⟩
  | .legacy => ⟨.legacy, [], none⟩

/-- Whether the run accepts the operation: `wellFormed_eq` ties it to `Instr.wellFormed`. -/
def Shape.accepted (neg : NegReading) : Shape → Bool
  | .negK _ _ _ imm => decide (neg = .literal) || decide (imm = 0)
  | .negX _ _ _ => decide (neg = .literal)
  | _ => true

/-- The shared operation that each instruction is. -/
def shape : Instr → Shape
  | .add32K dst imm => .alu32K (· + ·) dst imm
  | .add32X dst src => .alu32X (· + ·) dst src
  | .add64K dst imm => .alu64K (· + ·) dst imm
  | .add64X dst src => .alu64X (· + ·) dst src
  | .sub32K dst imm => .alu32K (· - ·) dst imm
  | .sub32X dst src => .alu32X (· - ·) dst src
  | .sub64K dst imm => .alu64K (· - ·) dst imm
  | .sub64X dst src => .alu64X (· - ·) dst src
  | .mul32K dst imm => .alu32K (· * ·) dst imm
  | .mul32X dst src => .alu32X (· * ·) dst src
  | .mul64K dst imm => .alu64K (· * ·) dst imm
  | .mul64X dst src => .alu64X (· * ·) dst src
  | .div32K dst imm => .alu32K (divOp 32) dst imm
  | .div32X dst src => .alu32X (divOp 32) dst src
  | .div64K dst imm => .alu64K (divOp 64) dst imm
  | .div64X dst src => .alu64X (divOp 64) dst src
  | .or32K dst imm => .alu32K (· ||| ·) dst imm
  | .or32X dst src => .alu32X (· ||| ·) dst src
  | .or64K dst imm => .alu64K (· ||| ·) dst imm
  | .or64X dst src => .alu64X (· ||| ·) dst src
  | .and32K dst imm => .alu32K (· &&& ·) dst imm
  | .and32X dst src => .alu32X (· &&& ·) dst src
  | .and64K dst imm => .alu64K (· &&& ·) dst imm
  | .and64X dst src => .alu64X (· &&& ·) dst src
  | .lsh32K dst imm => .shift32K (· <<< ·) dst imm
  | .lsh32X dst src => .shift32X (· <<< ·) dst src
  | .lsh64K dst imm => .shift64K (· <<< ·) dst imm
  | .lsh64X dst src => .shift64X (· <<< ·) dst src
  | .rsh32K dst imm => .shift32K (· >>> ·) dst imm
  | .rsh32X dst src => .shift32X (· >>> ·) dst src
  | .rsh64K dst imm => .shift64K (· >>> ·) dst imm
  | .rsh64X dst src => .shift64X (· >>> ·) dst src
  | .neg32K dst imm => .negK (fun k => zext64 (~~~k)) (fun v => zext64 (-low32 v)) dst imm
  | .neg32X dst src => .negX (fun v => zext64 (~~~(low32 v))) dst src
  | .neg64K dst imm => .negK (fun k => ~~~(immOperand k)) (fun v => -v) dst imm
  | .neg64X dst src => .negX (fun v => ~~~v) dst src
  | .mod32K dst imm => .alu32K (modOp 32) dst imm
  | .mod32X dst src => .alu32X (modOp 32) dst src
  | .mod64K dst imm => .alu64K (modOp 64) dst imm
  | .mod64X dst src => .alu64X (modOp 64) dst src
  | .xor32K dst imm => .alu32K (· ^^^ ·) dst imm
  | .xor32X dst src => .alu32X (· ^^^ ·) dst src
  | .xor64K dst imm => .alu64K (· ^^^ ·) dst imm
  | .xor64X dst src => .alu64X (· ^^^ ·) dst src
  | .mov32K dst imm => .writeK zext64 dst imm
  | .mov32X dst src => .writeX (fun v => zext64 (low32 v)) dst src
  | .mov64K dst imm => .writeK immOperand dst imm
  | .mov64X dst src => .writeX (fun v => v) dst src
  | .arsh32K dst imm => .shift32K BitVec.sshiftRight dst imm
  | .arsh32X dst src => .shift32X BitVec.sshiftRight dst src
  | .arsh64K dst imm => .shift64K BitVec.sshiftRight dst imm
  | .arsh64X dst src => .shift64X BitVec.sshiftRight dst src
  | .le16 dst => .endSwap .little 2 dst
  | .le32 dst => .endSwap .little 4 dst
  | .le64 dst => .endSwap .little 8 dst
  | .be16 dst => .endSwap .big 2 dst
  | .be32 dst => .endSwap .big 4 dst
  | .be64 dst => .endSwap .big 8 dst
  | .ja off => .ja off
  | .jeqK dst imm off => .jump64K condEq dst imm off
  | .jeqX dst src off => .jump64X condEq dst src off
  | .jeq32K dst imm off => .jump32K condEq dst imm off
  | .jeq32X dst src off => .jump32X condEq dst src off
  | .jgtK dst imm off => .jump64K condGt dst imm off
  | .jgtX dst src off => .jump64X condGt dst src off
  | .jgt32K dst imm off => .jump32K condGt dst imm off
  | .jgt32X dst src off => .jump32X condGt dst src off
  | .jgeK dst imm off => .jump64K condGe dst imm off
  | .jgeX dst src off => .jump64X condGe dst src off
  | .jge32K dst imm off => .jump32K condGe dst imm off
  | .jge32X dst src off => .jump32X condGe dst src off
  | .jsetK dst imm off => .jump64K condSet dst imm off
  | .jsetX dst src off => .jump64X condSet dst src off
  | .jset32K dst imm off => .jump32K condSet dst imm off
  | .jset32X dst src off => .jump32X condSet dst src off
  | .jneK dst imm off => .jump64K condNe dst imm off
  | .jneX dst src off => .jump64X condNe dst src off
  | .jne32K dst imm off => .jump32K condNe dst imm off
  | .jne32X dst src off => .jump32X condNe dst src off
  | .jsgtK dst imm off => .jump64K condSgt dst imm off
  | .jsgtX dst src off => .jump64X condSgt dst src off
  | .jsgt32K dst imm off => .jump32K condSgt dst imm off
  | .jsgt32X dst src off => .jump32X condSgt dst src off
  | .jsgeK dst imm off => .jump64K condSge dst imm off
  | .jsgeX dst src off => .jump64X condSge dst src off
  | .jsge32K dst imm off => .jump32K condSge dst imm off
  | .jsge32X dst src off => .jump32X condSge dst src off
  | .jltK dst imm off => .jump64K condLt dst imm off
  | .jltX dst src off => .jump64X condLt dst src off
  | .jlt32K dst imm off => .jump32K condLt dst imm off
  | .jlt32X dst src off => .jump32X condLt dst src off
  | .jleK dst imm off => .jump64K condLe dst imm off
  | .jleX dst src off => .jump64X condLe dst src off
  | .jle32K dst imm off => .jump32K condLe dst imm off
  | .jle32X dst src off => .jump32X condLe dst src off
  | .jsltK dst imm off => .jump64K condSlt dst imm off
  | .jsltX dst src off => .jump64X condSlt dst src off
  | .jslt32K dst imm off => .jump32K condSlt dst imm off
  | .jslt32X dst src off => .jump32X condSlt dst src off
  | .jsleK dst imm off => .jump64K condSle dst imm off
  | .jsleX dst src off => .jump64X condSle dst src off
  | .jsle32K dst imm off => .jump32K condSle dst imm off
  | .jsle32X dst src off => .jump32X condSle dst src off
  | .call imm => .call imm
  | .exit => .exit
  | .stxw dst src off => .storeReg .w dst src off
  | .stxh dst src off => .storeReg .h dst src off
  | .stxb dst src off => .storeReg .b dst src off
  | .stxdw dst src off => .storeReg .dw dst src off
  | .stw dst off imm => .storeImm .w dst off imm
  | .sth dst off imm => .storeImm .h dst off imm
  | .stb dst off imm => .storeImm .b dst off imm
  | .stdw dst off imm => .storeImm .dw dst off imm
  | .ldxw dst src off => .load .w dst src off
  | .ldxh dst src off => .load .h dst src off
  | .ldxb dst src off => .load .b dst src off
  | .ldxdw dst src off => .load .dw dst src off
  | .atomicAdd32 dst src off => .atomicPlain .w (on32 (· + ·)) dst src off
  | .atomicAdd64 dst src off => .atomicPlain .dw (· + ·) dst src off
  | .atomicOr32 dst src off => .atomicPlain .w (on32 (· ||| ·)) dst src off
  | .atomicOr64 dst src off => .atomicPlain .dw (· ||| ·) dst src off
  | .atomicAnd32 dst src off => .atomicPlain .w (on32 (· &&& ·)) dst src off
  | .atomicAnd64 dst src off => .atomicPlain .dw (· &&& ·) dst src off
  | .atomicXor32 dst src off => .atomicPlain .w (on32 (· ^^^ ·)) dst src off
  | .atomicXor64 dst src off => .atomicPlain .dw (· ^^^ ·) dst src off
  | .atomicFetchAdd32 dst src off => .atomicFetch .w (on32 (· + ·)) dst src off
  | .atomicFetchAdd64 dst src off => .atomicFetch .dw (· + ·) dst src off
  | .atomicFetchOr32 dst src off => .atomicFetch .w (on32 (· ||| ·)) dst src off
  | .atomicFetchOr64 dst src off => .atomicFetch .dw (· ||| ·) dst src off
  | .atomicFetchAnd32 dst src off => .atomicFetch .w (on32 (· &&& ·)) dst src off
  | .atomicFetchAnd64 dst src off => .atomicFetch .dw (· &&& ·) dst src off
  | .atomicFetchXor32 dst src off => .atomicFetch .w (on32 (· ^^^ ·)) dst src off
  | .atomicFetchXor64 dst src off => .atomicFetch .dw (· ^^^ ·) dst src off
  | .atomicXchg32 dst src off => .atomicFetch .w (on32 (fun _ v => v)) dst src off
  | .atomicXchg64 dst src off => .atomicFetch .dw (fun _ v => v) dst src off
  | .atomicCmpxchg32 dst src off => .atomicCmpxchg .w dst src off
  | .atomicCmpxchg64 dst src off => .atomicCmpxchg .dw dst src off
  | .lddw dst imm64 => .lddw dst imm64
  | .ldabsw _ | .ldabsh _ | .ldabsb _ | .ldabsdw _
  | .ldindw _ | .ldindh _ | .ldindb _ | .ldinddw _ => .legacy

theorem exec_eq_run (i : Instr) : exec i = (shape i).run := by cases i <;> rfl

theorem profile_eq (neg : NegReading) (i : Instr) : profile neg i = (shape i).profile neg := by cases i <;> rfl

theorem wellFormed_eq (neg : NegReading) (i : Instr) : i.wellFormed neg = (shape i).accepted neg := by cases i <;> rfl

/-- A wide instruction has two words, every other one (R70, R72). -/
theorem length_encode (neg : NegReading) (i : Instr) :
    (encode i).length = if (profile neg i).kind = .wide then 2 else 1 := by
  cases i <;> rfl

/-! ### What the pseudocode of an instruction yields -/

/-- The computation gives a value with the property, or a fault that an instruction may raise: `pcOutOfRange` is the
fault of a step, raised before there is an instruction (R28, R300). -/
def Yields {α : Type} (x : Except FaultInfo α) (P : α → Prop) : Prop :=
  (∀ a, x = .ok a → P a) ∧ ∀ e, x = .error e → ∀ pc, e ≠ .pcOutOfRange pc

theorem Yields.ok {α : Type} {P : α → Prop} {a : α} (h : P a) : Yields (.ok a) P :=
  ⟨fun _ ha => by cases ha; exact h, fun _ he => by cases he⟩

theorem Yields.error {α : Type} {P : α → Prop} {e : FaultInfo} (h : ∀ pc, e ≠ .pcOutOfRange pc) :
    Yields (.error e : Except FaultInfo α) P :=
  ⟨fun _ ha => by (cases ha), fun _ he => by cases he; exact h⟩

/-- The rule for a `do` line. -/
theorem Yields.bind {α β : Type} {x : Except FaultInfo α} {f : α → Except FaultInfo β} {P : α → Prop} {Q : β → Prop}
    (hx : Yields x P) (hf : ∀ a, P a → Yields (f a) Q) : Yields (x >>= f) Q := by
  cases x with
  | ok a => exact hf a (hx.1 a rfl)
  | error e => exact .error (hx.2 e rfl)

theorem yields_read (s : State) (r : Reg) : Yields (s.read r) (Holds s r) := by
  refine ⟨fun v hv => holds_read.2 hv, fun e he pc => ?_⟩
  obtain ⟨g, -, -, rfl⟩ := State.read_error he
  nofun

theorem yields_readAll (s : State) (gs : List GReg) : Yields (s.readAll gs) fun _ => True := by
  induction gs with
  | nil => exact .ok trivial
  | cons g gs ih => exact (yields_read s _).bind fun _ _ => ih.bind fun _ _ => .ok trivial

/-- A refused access raises one of the two faults of accesses. -/
theorem checkAccess_error_ne {par : Params} {kind : AccessKind} {addr : Word} {n : Nat} {e : FaultInfo}
    (h : checkAccess par kind addr n = .error e) : ∀ pc, e ≠ .pcOutOfRange pc := by
  rcases checkAccess_error h with rfl | rfl <;> nofun

theorem yields_memRead (s : State) (addr : Word) (sz : Size) :
    Yields (memRead s addr sz) fun p => ∃ r v, checkAccess s.par .read addr sz.bytes = .ok r ∧
      p = (v, (s.afterRead r sz.bytes).record r (.read .thisRun addr sz.bytes v)) := by
  rcases memRead_cases s addr sz with ⟨r, hc, h⟩ | ⟨e, hc, h⟩ <;> rw [h]
  · exact .ok ⟨r, _, hc, rfl⟩
  · exact .error (checkAccess_error_ne hc)

theorem yields_memWrite (s : State) (addr : Word) (sz : Size) (v : Word) :
    Yields (memWrite s addr sz v) fun t => ∃ r, checkAccess s.par .write addr sz.bytes = .ok r ∧
      t = (s.store addr sz.bytes v).record r (.write .thisRun addr sz.bytes (lowBytes sz.bytes v)) := by
  rcases memWrite_cases s addr sz v with ⟨r, hc, h⟩ | ⟨e, hc, h⟩ <;> rw [h]
  · exact .ok ⟨r, hc, rfl⟩
  · exact .error (checkAccess_error_ne hc)

theorem yields_atomicRMW (s : State) (addr : Word) (sz : Size) (f : Word → Option Word) :
    Yields (atomicRMW s addr sz f) fun p => ∃ r old, checkAccess s.par .atomic addr sz.bytes = .ok r ∧
      p = (old, s.rmwState r addr sz.bytes (f old)) := by
  rcases atomicRMW_cases s addr sz f with ⟨r, hc, h⟩ | ⟨e, hc, h⟩ <;> rw [h]
  · exact .ok ⟨r, _, hc, rfl⟩
  · exact .error (checkAccess_error_ne hc)

/-! ### What an instruction can do -/

/-- All that an instruction with the row `p` of R25 can do to the state `s` when it answers a next state: one case per
kind of instruction, and the fault. -/
inductive Effect (s : State) (p : Profile) : State → Prop where
  | fault (e : FaultInfo) (he : ∀ pc, e ≠ .pcOutOfRange pc) : Effect s p (s.withFault e)
  | result (g : GReg) (v : Word) (k : Nat) (hk : p.kind = .arith) (hd : p.dest = some g) :
      Effect s p { s.wrote g v with draws := k }
  | wide (g : GReg) (v : Word) (hk : p.kind = .wide) (hd : p.dest = some g) :
      Effect s p (s.put g v).advance.advance
  | jump (off : BitVec 16) (hk : p.kind = .jump off) : Effect s p (s.goto (s.target off))
  | branch (taken : Bool) (off : BitVec 16) (hk : p.kind = .conditional off) : Effect s p (s.branch taken off)
  | load (r : Region) (addr : Word) (sz : Size) (g : GReg) (v : Word) (hk : p.kind = .load) (hd : p.dest = some g)
      (hc : checkAccess s.par .read addr sz.bytes = .ok r) :
      Effect s p (((s.afterRead r sz.bytes).record r (.read .thisRun addr sz.bytes v)).put g v).advance
  | store (r : Region) (addr : Word) (sz : Size) (v : Word) (hk : p.kind = .store)
      (hc : checkAccess s.par .write addr sz.bytes = .ok r) :
      Effect s p ((s.store addr sz.bytes v).record r (.write .thisRun addr sz.bytes (lowBytes sz.bytes v))).advance
  | atomic (r : Region) (addr : Word) (sz : Size) (new : Option Word) (hk : p.kind = .atomic)
      (hc : checkAccess s.par .atomic addr sz.bytes = .ok r) :
      Effect s p (s.rmwState r addr sz.bytes new).advance
  | atomicResult (r : Region) (addr : Word) (sz : Size) (new : Option Word) (g : GReg) (old : Word)
      (hk : p.kind = .atomic) (hd : p.dest = some g) (hc : checkAccess s.par .atomic addr sz.bytes = .ok r) :
      Effect s p ((s.rmwState r addr sz.bytes new).put g old).advance
  | call (h : Helper) (args : List Word) (ret : Word) (w : HelperRun) (hk : p.kind = .call) (hd : p.dest = some .r0)
      (hr : s.helperCall h args = some (ret, w)) : Effect s p (((s.afterHelper w).put .r0 ret).dropArgs).advance
  | exit (v : Word) (hk : p.kind = .exit) (hv : Holds s (.gpr .r0) v) : Effect s p { s with out := .exited v }

theorem Effect.of_complete {s t : State} {p : Profile} {r : Except FaultInfo State} (hr : Yields r (Effect s p))
    (h : complete s r = .next t) : Effect s p t := by
  rcases complete_next h with rfl | ⟨e, rfl, rfl⟩
  · exact hr.1 t rfl
  · exact .fault e (hr.2 e rfl)

/-- A shift writes its register and may take a draw (R103). -/
theorem Effect.shift {s : State} {p : Profile} {g : GReg} {n : Nat} (v : Word) (o : Option (BitVec n))
    (hk : p.kind = .arith) (hd : p.dest = some g) : Effect s p ((s.afterResult o).put g v).advance := by
  have h : ((s.afterResult o).put g v).advance = { s.wrote g v with draws := (s.afterResult o).draws } := by
    cases o <;> rfl
  exact h ▸ .result g v _ hk hd

theorem writeX_effect {s t : State} {p : Profile} {f : Word → Word} {dst : GReg} {src : Reg} (hk : p.kind = .arith)
    (hd : p.dest = some dst) (h : writeX f dst src s = .next t) : Effect s p t :=
  .of_complete ((yields_read s src).bind fun v _ => .ok (.result dst (f v) s.draws hk hd)) h

theorem writeK_effect {s t : State} {p : Profile} {f : BitVec 32 → Word} {dst : GReg} {imm : BitVec 32}
    (hk : p.kind = .arith) (hd : p.dest = some dst) (h : writeK f dst imm s = .next t) : Effect s p t :=
  .of_complete (.ok (.result dst (f imm) s.draws hk hd)) h

theorem exitProgram_effect {s t : State} {p : Profile} (hk : p.kind = .exit) (h : exitProgram s = .next t) :
    Effect s p t := by
  cases hr : s.read (.gpr .r0) with
  | ok v => rw [exitProgram_ok hr] at h; cases h; exact .exit v hk (holds_read.2 hr)
  | error e => rw [exitProgram_error hr] at h; cases h; exact .fault e ((yields_read s _).2 e hr)

theorem callFunction_effect {s t : State} {p : Profile} {imm : BitVec 32} (hk : p.kind = .call)
    (hd : p.dest = some .r0) (h : callFunction imm s = .next t) : Effect s p t := by
  rcases callFunction_cases imm s with ⟨f, args, ret, w, hf, ha, hr⟩ | ⟨e, he⟩
  · rw [callFunction_ok hf ha hr] at h; cases h; exact .call f args ret w hk hd hr
  · rw [callFunction_error he] at h; cases h
    refine .fault e ?_
    rcases he with ⟨-, rfl⟩ | ⟨f, -, ha | ⟨args, -, -, rfl⟩⟩
    · nofun
    · exact (yields_readAll s _).2 e ha
    · nofun

/-- The inversion lemma of the shared operations. -/
theorem Shape.run_effect (sh : Shape) {s t : State} (h : sh.run s = .next t) :
    Effect s (sh.profile s.par.negReading) t := by
  cases sh with
  | alu32K f dst imm =>
    exact .of_complete ((yields_read s _).bind fun _ _ => .ok (.result dst _ s.draws rfl rfl)) h
  | alu32X f dst src =>
    exact .of_complete ((yields_read s _).bind fun _ _ => (yields_read s _).bind fun _ _ =>
      .ok (.result dst _ s.draws rfl rfl)) h
  | alu64K f dst imm =>
    exact .of_complete ((yields_read s _).bind fun _ _ => .ok (.result dst _ s.draws rfl rfl)) h
  | alu64X f dst src =>
    exact .of_complete ((yields_read s _).bind fun _ _ => (yields_read s _).bind fun _ _ =>
      .ok (.result dst _ s.draws rfl rfl)) h
  | shift32K op dst imm =>
    exact .of_complete ((yields_read s _).bind fun _ _ => .ok (.shift _ _ rfl rfl)) h
  | shift32X op dst src =>
    exact .of_complete ((yields_read s _).bind fun _ _ => (yields_read s _).bind fun _ _ => .ok (.shift _ _ rfl rfl)) h
  | shift64K op dst imm =>
    exact .of_complete ((yields_read s _).bind fun _ _ => .ok (.shift _ _ rfl rfl)) h
  | shift64X op dst src =>
    exact .of_complete ((yields_read s _).bind fun _ _ => (yields_read s _).bind fun _ _ => .ok (.shift _ _ rfl rfl)) h
  | writeK f dst imm => exact writeK_effect rfl rfl h
  | writeX f dst src => exact writeX_effect rfl rfl h
  | negK complement negate dst imm =>
    simp only [Shape.run, Machine.negK] at h
    split at h
    · exact writeK_effect rfl rfl h
    · split at h
      · exact writeX_effect rfl rfl h
      · cases h
  | negX complement dst src =>
    simp only [Shape.run, Machine.negX] at h
    split at h
    · exact writeX_effect rfl rfl h
    · cases h
  | endSwap target n dst => exact writeX_effect rfl rfl h
  | ja off => cases h; exact .jump off rfl
  | jump64K c dst imm off =>
    exact .of_complete ((yields_read s _).bind fun _ _ => .ok (.branch _ off rfl)) h
  | jump64X c dst src off =>
    exact .of_complete ((yields_read s _).bind fun _ _ => (yields_read s _).bind fun _ _ => .ok (.branch _ off rfl)) h
  | jump32K c dst imm off =>
    exact .of_complete ((yields_read s _).bind fun _ _ => .ok (.branch _ off rfl)) h
  | jump32X c dst src off =>
    exact .of_complete ((yields_read s _).bind fun _ _ => (yields_read s _).bind fun _ _ => .ok (.branch _ off rfl)) h
  | call imm => exact callFunction_effect rfl rfl h
  | exit => exact exitProgram_effect rfl h
  | storeReg sz dst src off =>
    refine .of_complete ((yields_read s _).bind fun _ _ => (yields_read s _).bind fun _ _ =>
      (yields_memWrite s _ sz _).bind ?_) h
    rintro _ ⟨r, hc, rfl⟩
    exact .ok (.store r _ sz _ rfl hc)
  | storeImm sz dst off imm =>
    refine .of_complete ((yields_read s _).bind fun _ _ => (yields_memWrite s _ sz _).bind ?_) h
    rintro _ ⟨r, hc, rfl⟩
    exact .ok (.store r _ sz _ rfl hc)
  | load sz dst src off =>
    refine .of_complete ((yields_read s _).bind fun _ _ => (yields_memRead s _ sz).bind ?_) h
    rintro _ ⟨r, v, hc, rfl⟩
    exact .ok (.load r _ sz dst v rfl rfl hc)
  | atomicPlain sz f dst src off =>
    refine .of_complete ((yields_read s _).bind fun _ _ => (yields_read s _).bind fun _ _ =>
      (yields_atomicRMW s _ sz _).bind ?_) h
    rintro _ ⟨r, old, hc, rfl⟩
    exact .ok (.atomic r _ sz _ rfl hc)
  | atomicFetch sz f dst src off =>
    refine .of_complete ((yields_read s _).bind fun _ _ => (yields_read s _).bind fun _ _ =>
      (yields_atomicRMW s _ sz _).bind ?_) h
    rintro _ ⟨r, old, hc, rfl⟩
    exact .ok (.atomicResult r _ sz _ src old rfl rfl hc)
  | atomicCmpxchg sz dst src off =>
    refine .of_complete ((yields_read s _).bind fun _ _ => (yields_read s _).bind fun _ _ =>
      (yields_read s _).bind fun _ _ => (yields_atomicRMW s _ sz _).bind ?_) h
    rintro _ ⟨r, old, hc, rfl⟩
    exact .ok (.atomicResult r _ sz _ .r0 old rfl rfl hc)
  | lddw dst imm64 => cases h; exact .wide dst imm64 rfl rfl
  | legacy => cases h

/-- The inversion lemma of `exec`. -/
theorem exec_effect {i : Instr} {s t : State} (h : exec i s = .next t) : Effect s (profile s.par.negReading i) t := by
  rw [exec_eq_run] at h
  rw [profile_eq]
  exact (shape i).run_effect h

/-! ### What a step can do -/

/-- A step that answers a next state is the fault of a `pc` outside the program, or the instruction at `pc` (R300). -/
theorem step_next {s t : State} (h : step s = .next t) :
    (fetch s = none ∧ t = s.withFault (.pcOutOfRange s.pc)) ∨
    ∃ w second i, fetch s = some (w, second) ∧ decode s.par.negReading w second = .ok i ∧ exec i s = .next t := by
  unfold step at h
  split at h
  · cases h
  · cases h
  · split at h
    · cases h; exact .inl ⟨‹_›, rfl⟩
    · split at h
      · cases h
      · exact .inr ⟨_, _, _, ‹_›, ‹_›, h⟩

/-- A step outside the program, from a running state (R28). -/
theorem step_of_fetch_none {s : State} (hr : Running s) (hf : fetch s = none) :
    step s = .next (s.withFault (.pcOutOfRange s.pc)) := by
  unfold Running at hr; simp only [step, hr, hf]; rfl

/-- A step at a word the decoder refuses, from a running state (R302). -/
theorem step_of_decode_error {s : State} {w : Word} {second : Option Word} {k : RefusalKind} (hr : Running s)
    (hf : fetch s = some (w, second)) (hd : decode s.par.negReading w second = .error k) :
    step s = .refused (.word k) := by
  unfold Running at hr; simp only [step, hr, hf, hd]

/-! ### Fields that the operations on memory keep -/

@[simp] theorem State.rmwState_regs (s : State) (r : Region) (a : Word) (n : Nat) (new : Option Word) :
    (s.rmwState r a n new).regs = s.regs := by simp [State.rmwState]

@[simp] theorem State.rmwState_pc (s : State) (r : Region) (a : Word) (n : Nat) (new : Option Word) :
    (s.rmwState r a n new).pc = s.pc := by simp [State.rmwState]

@[simp] theorem State.rmwState_out (s : State) (r : Region) (a : Word) (n : Nat) (new : Option Word) :
    (s.rmwState r a n new).out = s.out := by simp [State.rmwState]

@[simp] theorem State.rmwState_par (s : State) (r : Region) (a : Word) (n : Nat) (new : Option Word) :
    (s.rmwState r a n new).par = s.par := by simp [State.rmwState]

/-! ### Frames -/

/-- No instruction changes R10 or a parameter (R20, R25). -/
theorem Effect.r10_par {s t : State} {p : Profile} (h : Effect s p t) : t.regs.r10 = s.regs.r10 ∧ t.par = s.par := by
  cases h with
  | fault | jump | exit => exact ⟨rfl, rfl⟩
  | result | wide | branch | load | store | atomic | atomicResult => simp [State.wrote]
  | call h args ret w => simp [RegFile.set]

/-- Taking the argument registers changes no other (R220). -/
theorem get_dropArgs {s : State} {g : GReg} (h : g ∉ argRegs) : s.dropArgs.regs.get g = s.regs.get g := by
  cases g with
  | r1 | r2 | r3 | r4 | r5 => exact absurd (by decide) h
  | r0 | r6 | r7 | r8 | r9 => rfl

/-- An instruction changes no register but the one it writes, and for a call R1 to R5 (R25). -/
theorem Effect.get_eq {s t : State} {p : Profile} {g : GReg} (h : Effect s p t) (hg : p.dest ≠ some g)
    (ha : p.kind = .call → g ∉ argRegs) : t.regs.get g = s.regs.get g := by
  have ne : ∀ {g'}, p.dest = some g' → g ≠ g' := by rintro g' hd rfl; exact hg hd
  cases h with
  | fault | jump | exit => rfl
  | branch | store | atomic => simp
  | result g' v k hk hd => exact RegFile.get_set_ne _ _ (ne hd)
  | wide g' v hk hd => exact RegFile.get_set_ne _ _ (ne hd)
  | load r addr sz g' v hk hd hc => simpa using RegFile.get_set_ne _ _ (ne hd)
  | atomicResult r addr sz new g' old hk hd hc => simpa using RegFile.get_set_ne _ _ (ne hd)
  | call f args ret w hk hd hr =>
    rw [State.advance_regs, get_dropArgs (ha hk)]
    exact RegFile.get_set_ne _ _ (ne hd)

/-- A fault an instruction ends with is not that of a `pc` outside the program (R28, R304). -/
theorem Effect.out_ne_pcOutOfRange {s t : State} {p : Profile} (h : Effect s p t) (hr : Running s) (pc : Int) :
    t.out ≠ .faulted (.pcOutOfRange pc) := by
  unfold Running at hr
  cases h with
  | fault e he => simpa [State.withFault] using he pc
  | result | wide | jump | branch | load | store | atomic | atomicResult | call =>
    simp [State.wrote, State.goto, hr]
  | exit => nofun

/-! ### Sequencing -/

/-- Where the program counter goes after an instruction of a kind with so many slots (R27). -/
def Kind.goesTo (k : Kind) (slots : Nat) (s t : State) : Prop :=
  match k with
  | .jump off => t.pc = s.target off
  | .conditional off => t.pc = s.target off ∨ t.pc = s.pc + 1
  | _ => t.pc = s.pc + slots

theorem Effect.goesTo {s t : State} {p : Profile} (h : Effect s p t) (ht : Running t) :
    p.kind.goesTo (if p.kind = .wide then 2 else 1) s t := by
  cases h with
  | fault | exit => cases ht
  | jump off hk => rw [hk]; rfl
  | branch taken off hk =>
    rw [hk]
    cases taken
    · exact .inr rfl
    · exact .inl rfl
  | wide g v hk => rw [hk]; simp [Kind.goesTo]; omega
  | result g v k hk | load r addr sz g v hk | store r addr sz v hk | atomic r addr sz new hk
  | atomicResult r addr sz new g old hk | call f args ret w hk => simp [hk, Kind.goesTo, State.wrote]

/-! ### Registers without a value -/

/-- Reading the registers in order ends with the fault of the first read that fails (R309). -/
def ReadFails (s : State) (e : FaultInfo) : List Reg → Prop
  | [] => False
  | r :: rs => s.read r = .error e ∨ ∃ v, s.read r = .ok v ∧ ReadFails s e rs

theorem readFails_one {s : State} {e : FaultInfo} {a : Reg} : ReadFails s e [a] ↔ s.read a = .error e := by
  simp [ReadFails]

theorem readFails_two {s : State} {e : FaultInfo} {a b : Reg} :
    ReadFails s e [a, b] ↔ s.read a = .error e ∨ ∃ v, s.read a = .ok v ∧ s.read b = .error e := by
  simp [ReadFails]

/-- The registers before hold values and the next one holds none: its read is the one that fails. -/
theorem readFails_of_holdsNone {s : State} {before after : List Reg} {g : GReg}
    (hb : ∀ r ∈ before, ∃ v, Holds s r v) (hg : HoldsNone s g) :
    ReadFails s (.uninitRegister g) (before ++ .gpr g :: after) := by
  induction before with
  | nil => exact .inl (read_of_holdsNone hg)
  | cons r rs ih =>
    obtain ⟨v, hv⟩ := hb r (by simp)
    exact .inr ⟨v, read_of_holds hv, ih fun q hq => hb q (by simp [hq])⟩

/-- An accepted operation ends with the fault of the first of its reads that fails. -/
theorem Shape.run_of_readFails (sh : Shape) {s : State} {e : FaultInfo} (ha : sh.accepted s.par.negReading = true)
    (h : ReadFails s e (sh.profile s.par.negReading).reads) : sh.run s = .next (s.withFault e) := by
  cases sh with
  | alu32K f dst imm => exact alu32K_error _ _ _ (readFails_one.1 h)
  | alu32X f dst src => exact alu32X_error _ _ _ (readFails_two.1 h)
  | alu64K f dst imm => exact alu64K_error _ _ _ (readFails_one.1 h)
  | alu64X f dst src => exact alu64X_error _ _ _ (readFails_two.1 h)
  | shift32K op dst imm => exact shift32K_error _ _ _ (readFails_one.1 h)
  | shift32X op dst src => exact shift32X_error _ _ _ (readFails_two.1 h)
  | shift64K op dst imm => exact shift64K_error _ _ _ (readFails_one.1 h)
  | shift64X op dst src => exact shift64X_error _ _ _ (readFails_two.1 h)
  | writeX f dst src => exact writeX_error _ _ _ (readFails_one.1 h)
  | negK complement negate dst imm =>
    simp only [Shape.run, Machine.negK, Shape.profile, Shape.accepted] at h ha ⊢
    cases hn : s.par.negReading with
    | literal => simp [hn, ReadFails] at h
    | negateDst =>
      simp only [hn, reduceCtorEq, decide_false, Bool.false_or, decide_eq_true_eq, if_false] at h ha
      rw [if_pos ha]
      exact writeX_error _ _ _ (readFails_one.1 h)
  | negX complement dst src =>
    have hn : s.par.negReading = .literal := of_decide_eq_true ha
    simp only [Shape.run, Machine.negX, hn]
    exact writeX_error _ _ _ (readFails_one.1 h)
  | endSwap target n dst => exact writeX_error _ _ _ (readFails_one.1 h)
  | jump64K c dst imm off => exact jump64K_error _ _ _ _ (readFails_one.1 h)
  | jump64X c dst src off => exact jump64X_error _ _ _ _ (readFails_two.1 h)
  | jump32K c dst imm off => exact jump32K_error _ _ _ _ (readFails_one.1 h)
  | jump32X c dst src off => exact jump32X_error _ _ _ _ (readFails_two.1 h)
  | exit => exact exitProgram_error (readFails_one.1 h)
  | storeReg sz dst src off =>
    exact storeReg_error _ ((readFails_two.1 h).imp_right fun ⟨b, hb, hv⟩ => ⟨b, hb, .inl hv⟩)
  | storeImm sz dst off imm => exact storeImm_error _ _ (.inl (readFails_one.1 h))
  | load sz dst src off => exact loadReg_error _ _ (.inl (readFails_one.1 h))
  | atomicPlain sz f dst src off =>
    exact atomicPlain_error _ _ ((readFails_two.1 h).imp_right fun ⟨b, hb, hv⟩ => ⟨b, hb, .inl hv⟩)
  | atomicFetch sz f dst src off =>
    exact atomicFetch_error _ _ ((readFails_two.1 h).imp_right fun ⟨b, hb, hv⟩ => ⟨b, hb, .inl hv⟩)
  | atomicCmpxchg sz dst src off =>
    refine atomicCmpxchg_error _ (Or.imp_right ?_ h)
    rintro ⟨b, hb, hs⟩
    refine ⟨b, hb, Or.imp_right ?_ hs⟩
    rintro ⟨v, hv, h0⟩
    exact ⟨v, hv, .inl (readFails_one.1 h0)⟩
  | writeK | ja | call | lddw | legacy => exact h.elim

/-! ### The regions of a valid launch -/

theorem pairwiseDisjoint_iff {l : List Region} : pairwiseDisjoint l = true ↔
    l.Pairwise fun r q => r.length = 0 ∨ q.length = 0 ∨ r.base.toNat + r.length ≤ q.base.toNat ∨
      q.base.toNat + q.length ≤ r.base.toNat := by
  induction l with
  | nil => simp [pairwiseDisjoint]
  | cons r l ih => simp [pairwiseDisjoint, disjoint, ih, or_assoc]

theorem Launch.fits_of_valid {l : Launch} (h : l.valid = true) : ∀ r ∈ l.allRegions, Region.fits r = true := by
  simp only [Launch.valid, Bool.and_eq_true, List.all_eq_true] at h
  obtain ⟨⟨⟨_, hfit⟩, _⟩, _⟩ := h
  exact hfit

theorem Launch.disjoint_of_valid {l : Launch} (h : l.valid = true) : pairwiseDisjoint l.allRegions = true := by
  simp only [Launch.valid, Bool.and_eq_true] at h
  obtain ⟨⟨_, hdis⟩, _⟩ := h
  exact hdis

/-- The bytes that a region lists at launch: its content, or none where it is unconstrained (R34; log 6). -/
def launchBytes (r : Region) : List Byte := r.content.getD []

/-- A region that fits lists no byte outside itself, nor above the address space (R55). -/
theorem launchBytes_of_fits {r : Region} (h : Region.fits r = true) :
    r.base.toNat + r.length ≤ 2 ^ 64 ∧ (launchBytes r).length ≤ r.length := by
  unfold Region.fits at h
  unfold launchBytes
  cases hc : r.content with
  | none => simpa [hc] using h
  | some bs =>
    simp only [hc, Bool.and_eq_true, decide_eq_true_eq] at h
    obtain ⟨htop, hlen⟩ := h
    exact ⟨htop, hlen.le⟩

/-! ### The memory of a launch -/

theorem launchMemory_cons (m : Memory) (r : Region) (rs : List Region) :
    launchMemory m (r :: rs) = launchMemory (Memory.setBytes m r.base.toNat (launchBytes r)) rs := by
  cases hc : r.content <;> simp [launchMemory, launchBytes, hc, Memory.setBytes]

/-- Writing the launch content keeps the canonical form. -/
theorem wf_launchMemory (rs : List Region) : ∀ {m : Memory}, m.wf = true → (launchMemory m rs).wf = true := by
  induction rs with
  | nil => exact id
  | cons r rs ih => intro m hm; rw [launchMemory_cons]; exact ih (Memory.wf_setBytes _ _ hm)

/-- A byte listed after writing the launch content was listed before, or is one of those of a region. -/
theorem mem_launchMemory (rs : List Region) : ∀ {m : Memory} {c : Host.Cell}, c ∈ launchMemory m rs →
    c ∈ m ∨ ∃ r ∈ rs, r.base.toNat ≤ c.1 ∧ c.1 < r.base.toNat + (launchBytes r).length := by
  induction rs with
  | nil => exact .inl
  | cons r rs ih =>
    intro m c hc
    rw [launchMemory_cons] at hc
    rcases ih hc with hc | ⟨q, hq, hin⟩
    · exact (Memory.mem_setBytes _ hc).imp_right fun hin => ⟨r, List.mem_cons_self, hin⟩
    · exact .inr ⟨q, List.mem_cons_of_mem _ hq, hin⟩

theorem get_launchMemory_outside (rs : List Region) : ∀ (m : Memory) {a : Nat},
    (∀ r ∈ rs, a < r.base.toNat ∨ r.base.toNat + (launchBytes r).length ≤ a) →
    Memory.get (launchMemory m rs) a = Memory.get m a := by
  induction rs with
  | nil => intros; rfl
  | cons r rs ih =>
    intro m a h
    rw [List.forall_mem_cons] at h
    rw [launchMemory_cons, ih _ h.2, Memory.get_setBytes_outside _ _ _ _ h.1]

/-- Of regions that fit and share no byte, each has its launch content in memory (R34). -/
theorem get_launchMemory_inside {rs : List Region} (hs : pairwiseDisjoint rs = true) :
    ∀ (m : Memory), (∀ r ∈ rs, Region.fits r = true) → ∀ r ∈ rs, ∀ k (h : k < (launchBytes r).length),
      Memory.get (launchMemory m rs) (r.base.toNat + k) = some (launchBytes r)[k] := by
  rw [pairwiseDisjoint_iff] at hs
  induction hs with
  | nil => intro m _ r hr; cases hr
  | @cons q rs hq _ ih =>
    intro m hf r hr k hk
    rw [launchMemory_cons]
    rcases List.mem_cons.1 hr with rfl | hr
    · rw [get_launchMemory_outside rs _ fun p hp => ?_, Memory.get_setBytes_inside _ _ _ _ hk]
      have := hq p hp
      have := (launchBytes_of_fits (hf r List.mem_cons_self)).2
      have := (launchBytes_of_fits (hf p (List.mem_cons_of_mem _ hp))).2
      omega
    · exact ih _ (fun p hp => hf p (List.mem_cons_of_mem _ hp)) r hr k hk

/-- Of regions that fit and share no byte, one of unconstrained content has no byte listed (R34; log 6). -/
theorem get_launchMemory_unconstrained {rs : List Region} (hs : pairwiseDisjoint rs = true)
    (hf : ∀ r ∈ rs, Region.fits r = true) {r : Region} (hr : r ∈ rs) (hc : r.content = none) {k : Nat}
    (hk : k < r.length) : Memory.get (launchMemory [] rs) (r.base.toNat + k) = none := by
  rw [get_launchMemory_outside rs _ fun q hq => ?_]
  · rfl
  · by_contra hin
    have hlen := (launchBytes_of_fits (hf q hq)).2
    have hrq : r = q := Separate.unique (pairwiseDisjoint_iff.1 hs) hr hq (a := r.base.toNat + k) (by omega) (by omega)
    subst hrq
    simp only [launchBytes, hc, Option.getD_none, List.length_nil] at hin
    omega

/-! ### The statements settled -/

/-- Settles O8: by the formats that write dst_reg, and by the fetching atomic operations. -/
theorem writeToR10Refused : Obligations.WriteToR10Refused := by
  rintro w second hs hl hm hd hsrc (⟨hw, h10⟩ | ⟨ho, hi, h10⟩)
  · have hf := decodeFields_format (Fields.ofWord w) second (by simpa using hs) (by simpa using hl)
    rw [Fields.toNat_opcode_ofWord, hw] at hf
    exact hf.dst_ten hm (by simpa using h10) (by simpa using hsrc)
  · exact decodeFields_fetch_src_ten second (by simpa using ho) (by simpa using hi) (by simpa using hd) (by simpa using h10)

/-- Settles O15: `fetch` is the check of R28, and the fault is no instruction's. -/
theorem pcRange : Obligations.PcRange := by
  refine ⟨fun s hr hpc => step_of_fetch_none hr (fetch_none.2 hpc), fun s w hr hpc hw h0 => ?_, fun s hr h0 hlt h => ?_⟩
  · have hf : fetch s = some (w, s.par.program[s.pc.toNat + 1]?) := by simp only [fetch, if_pos hpc, hw]
    exact step_of_decode_error hr hf (decode_of_opcode_zero _ _ h0)
  · rcases step_next h with ⟨hf, -⟩ | ⟨w, second, i, -, -, hi⟩
    · rcases fetch_none.1 hf with hf | hf <;> omega
    · exact (exec_effect hi).out_ne_pcOutOfRange hr s.pc rfl

/-- Settles O21: what a launch lists is content of its regions, and these fit. -/
theorem launchInv : Obligations.LaunchInv := by
  intro l h
  refine ⟨wf_launchMemory _ rfl, fun c hc => ?_, nofun⟩
  rcases mem_launchMemory _ hc with hc | ⟨r, hr, hlo, hhi⟩
  · cases hc
  · obtain ⟨htop, hlen⟩ := launchBytes_of_fits (Launch.fits_of_valid h r hr)
    exact ⟨by omega, r, hr, hlo, by omega⟩

/-- Settles O22: the step is a fault or an instruction, and no instruction changes them. -/
theorem framePointerAndParametersConstant : Obligations.FramePointerAndParametersConstant := by
  intro s t h
  rcases step_next h with ⟨-, rfl⟩ | ⟨w, second, i, -, -, hi⟩
  · exact ⟨rfl, rfl⟩
  · exact (exec_effect hi).r10_par

/-- Settles O25, from the inversion of `exec` and the number of words of an instruction. -/
theorem sequencing : Obligations.Sequencing := by
  intro i s t _ h ht
  have key : (profile s.par.negReading i).kind.goesTo (encode i).length s t :=
    length_encode s.par.negReading i ▸ (exec_effect h).goesTo ht
  exact key

/-- Settles O27, from the inversion of `exec`. -/
theorem registerFrame : Obligations.RegisterFrame := fun _ _ _ _ h hg ha => (exec_effect h).get_eq hg ha

/-- Settles O28: the fault is that of the first read that fails. -/
theorem uninitRegisterFault : Obligations.UninitRegisterFault := by
  intro i s before g after hwf hreads hb hg
  rw [exec_eq_run]
  refine (shape i).run_of_readFails (wellFormed_eq s.par.negReading i ▸ hwf) ?_
  rw [← profile_eq, hreads]
  exact readFails_of_holdsNone hb hg

/-- Settles O59: the content of each region survives the writing of the others. -/
theorem launchState : Obligations.LaunchState := by
  intro l h
  have hs := Launch.disjoint_of_valid h
  have hf := Launch.fits_of_valid h
  refine ⟨rfl, rfl, rfl, fun r hr bs hbs k hk => ?_, fun r hr hc k hk => get_launchMemory_unconstrained hs hf hr hc hk⟩
  have hb : launchBytes r = bs := by rw [launchBytes, hbs]; rfl
  subst hb
  have hget : Memory.get (State.launch l).mem (r.base.toNat + k) = some (launchBytes r)[k] :=
    get_launchMemory_inside hs [] hf r (List.mem_cons_of_mem _ hr) k hk
  rw [State.byteAt, hget]; rfl

/-- Settles O20: reset lists no byte and no event. -/
theorem resetInv : Obligations.ResetInv where
  canonical := rfl
  inRegions := nofun
  history := nofun

/-- Settles O40: the offset is a 16-bit integer. -/
theorem jaResult : Obligations.JaResult := fun _ off => ⟨rfl, off.le_toInt, Int.le_of_lt_add_one off.toInt_lt⟩

/-- Settles O58: the fields of `State.reset` as they are written, each of R0 to R9 in turn. -/
theorem resetState : Obligations.ResetState := by
  refine ⟨rfl, rfl, rfl, rfl, fun g => ?_, resetStack, rfl, rfl, rfl, rfl, rfl⟩
  cases g <;> rfl

end Sys2Proof.Machine
end

section
/-! The statements about data memory (20_memory.md): the words of a program, the invariant and the frame of an instruction,
called functions, granted and refused accesses. The settled statements stand at the end. -/

namespace Sys2Proof

/-! ### Decoding the words of an instruction: each format gives back the operands its fields were made from (R79) -/

theorem decodeAluK_ok (c : GReg → BitVec 32 → Instr) (g : GReg) (imm : BitVec 32) (op : BitVec 8) :
    decodeAluK ⟨imm, 0, 0, gregField g, op⟩ c = .ok (c g imm) := by simp [decodeAluK]

theorem decodeAluX_ok (c : GReg → Reg → Instr) (g : GReg) (r : Reg) (op : BitVec 8) :
    decodeAluX ⟨0, 0, regField r, gregField g, op⟩ c = .ok (c g r) := by simp [decodeAluX]

theorem decodeNegK_ok {neg : NegReading} (c : GReg → BitVec 32 → Instr) (g : GReg) {imm : BitVec 32} (op : BitVec 8)
    (h : (decide (neg = .literal) || decide (imm = 0)) = true) :
    decodeNegK neg ⟨imm, 0, 0, gregField g, op⟩ c = .ok (c g imm) := by
  have hz : (decide (neg = .literal) || imm == 0) = true := h
  rw [decodeNegK, hz, mustBeZero_true, decodeAluK_ok]

theorem decodeNegX_ok {neg : NegReading} (c : GReg → Reg → Instr) (g : GReg) (r : Reg) (op : BitVec 8)
    (h : decide (neg = .literal) = true) : decodeNegX neg ⟨0, 0, regField r, gregField g, op⟩ c = .ok (c g r) := by
  rw [of_decide_eq_true h, decodeNegX, decodeAluX_ok]

theorem decodeEnd_16 (c16 c32 c64 : GReg → Instr) (g : GReg) (op : BitVec 8) :
    decodeEnd ⟨16, 0, 0, gregField g, op⟩ c16 c32 c64 = .ok (c16 g) := by simp [decodeEnd]

theorem decodeEnd_32 (c16 c32 c64 : GReg → Instr) (g : GReg) (op : BitVec 8) :
    decodeEnd ⟨32, 0, 0, gregField g, op⟩ c16 c32 c64 = .ok (c32 g) := by simp [decodeEnd]

theorem decodeEnd_64 (c16 c32 c64 : GReg → Instr) (g : GReg) (op : BitVec 8) :
    decodeEnd ⟨64, 0, 0, gregField g, op⟩ c16 c32 c64 = .ok (c64 g) := by simp [decodeEnd]

theorem decodeJcondK_ok (c : Reg → BitVec 32 → BitVec 16 → Instr) (r : Reg) (imm : BitVec 32) (off : BitVec 16)
    (op : BitVec 8) : decodeJcondK ⟨imm, off, 0, regField r, op⟩ c = .ok (c r imm off) := by simp [decodeJcondK]

theorem decodeTwoRead_ok (c : Reg → Reg → BitVec 16 → Instr) (r q : Reg) (off : BitVec 16) (op : BitVec 8) :
    decodeTwoRead ⟨0, off, regField q, regField r, op⟩ c = .ok (c r q off) := by simp [decodeTwoRead]

theorem decodeLdx_ok (c : GReg → Reg → BitVec 16 → Instr) (g : GReg) (r : Reg) (off : BitVec 16) (op : BitVec 8) :
    decodeLdx ⟨0, off, regField r, gregField g, op⟩ c = .ok (c g r off) := by simp [decodeLdx]

theorem decodeSt_ok (c : Reg → BitVec 16 → BitVec 32 → Instr) (r : Reg) (off : BitVec 16) (imm : BitVec 32)
    (op : BitVec 8) : decodeSt ⟨imm, off, 0, regField r, op⟩ c = .ok (c r off imm) := by simp [decodeSt]

theorem decodeAtomicPlain_ok (c : Reg → Reg → BitVec 16 → Instr) (r q : Reg) (off : BitVec 16) (imm : BitVec 32)
    (op : BitVec 8) : decodeAtomicPlain ⟨imm, off, regField q, regField r, op⟩ c = .ok (c r q off) := by
  simp [decodeAtomicPlain]

theorem decodeAtomicFetch_ok (c : Reg → GReg → BitVec 16 → Instr) (r : Reg) (g : GReg) (off : BitVec 16)
    (imm : BitVec 32) (op : BitVec 8) :
    decodeAtomicFetch ⟨imm, off, gregField g, regField r, op⟩ c = .ok (c r g off) := by simp [decodeAtomicFetch]

/-- The rest of a legacy word is the rest that its fields were made from (R282, R283). -/
theorem rest_legacyFields (op : BitVec 8) (rest : BitVec 56) : (legacyFields op rest).rest = rest := by
  have hoff : rest.extractLsb' 24 32 ++ rest.extractLsb' 8 16 = rest.extractLsb' 8 48 :=
    BitVec.extractLsb'_append_extractLsb'_eq_extractLsb' rfl
  have hsrc : rest.extractLsb' 8 48 ++ rest.extractLsb' 4 4 = rest.extractLsb' 4 52 :=
    BitVec.extractLsb'_append_extractLsb'_eq_extractLsb' rfl
  have hdst : rest.extractLsb' 4 52 ++ rest.extractLsb' 0 4 = rest.extractLsb' 0 56 :=
    BitVec.extractLsb'_append_extractLsb'_eq_extractLsb' rfl
  rw [Fields.rest, legacyFields, hoff, hsrc, hdst, BitVec.extractLsb'_eq_self]

theorem decodeLddw_ok (g : GReg) (imm64 : Word) :
    decodeLddw (encodeFields (.lddw g imm64)) (some (pseudoWord imm64)) = .ok (.lddw g imm64) := by
  have hlow : (pseudoWord imm64).extractLsb' 0 32 = 0 := BitVec.extractLsb'_append_eq_right
  have hhigh : (pseudoWord imm64).extractLsb' 32 32 = imm64.extractLsb' 32 32 := BitVec.extractLsb'_append_eq_left
  have himm : imm64.extractLsb' 32 32 ++ imm64.extractLsb' 0 32 = imm64.extractLsb' 0 64 :=
    BitVec.extractLsb'_append_extractLsb'_eq_extractLsb' rfl
  simp [decodeLddw, encodeFields, hlow, hhigh, himm]

/-- Decoding the fields of a well-formed instruction gives it back; a wide one needs its second word (R79 to R81). -/
theorem decodeFields_encodeFields {neg : NegReading} {i : Instr} {second : Option Word} (h : i.wellFormed neg = true)
    (hsecond : ∀ g v, i = .lddw g v → second = some (pseudoWord v)) :
    decodeFields neg (encodeFields i) second = .ok i := by
  cases i with dsimp only [encodeFields]
  | add32K | add64K | sub32K | sub64K | mul32K | mul64K | div32K | div64K | or32K | or64K | and32K | and64K
  | lsh32K | lsh64K | rsh32K | rsh64K | mod32K | mod64K | xor32K | xor64K | mov32K | mov64K | arsh32K | arsh64K =>
    exact decodeAluK_ok _ _ _ _
  | add32X | add64X | sub32X | sub64X | mul32X | mul64X | div32X | div64X | or32X | or64X | and32X | and64X
  | lsh32X | lsh64X | rsh32X | rsh64X | mod32X | mod64X | xor32X | xor64X | mov32X | mov64X | arsh32X | arsh64X =>
    exact decodeAluX_ok _ _ _ _
  | neg32K | neg64K => exact decodeNegK_ok _ _ _ h
  | neg32X | neg64X => exact decodeNegX_ok _ _ _ _ h
  | le16 => exact decodeEnd_16 .le16 .le32 .le64 _ _
  | le32 => exact decodeEnd_32 .le16 .le32 .le64 _ _
  | le64 => exact decodeEnd_64 .le16 .le32 .le64 _ _
  | be16 => exact decodeEnd_16 .be16 .be32 .be64 _ _
  | be32 => exact decodeEnd_32 .be16 .be32 .be64 _ _
  | be64 => exact decodeEnd_64 .be16 .be32 .be64 _ _
  | ja | call | exit => rfl
  | jeqK | jeq32K | jgtK | jgt32K | jgeK | jge32K | jsetK | jset32K | jneK | jne32K | jsgtK | jsgt32K
  | jsgeK | jsge32K | jltK | jlt32K | jleK | jle32K | jsltK | jslt32K | jsleK | jsle32K =>
    exact decodeJcondK_ok _ _ _ _ _
  | jeqX | jeq32X | jgtX | jgt32X | jgeX | jge32X | jsetX | jset32X | jneX | jne32X | jsgtX | jsgt32X
  | jsgeX | jsge32X | jltX | jlt32X | jleX | jle32X | jsltX | jslt32X | jsleX | jsle32X
  | stxw | stxh | stxb | stxdw =>
    exact decodeTwoRead_ok _ _ _ _ _
  | stw | sth | stb | stdw => exact decodeSt_ok _ _ _ _ _
  | ldxw | ldxh | ldxb | ldxdw => exact decodeLdx_ok _ _ _ _ _
  | atomicAdd32 | atomicAdd64 | atomicOr32 | atomicOr64 | atomicAnd32 | atomicAnd64 | atomicXor32 | atomicXor64
  | atomicCmpxchg32 | atomicCmpxchg64 =>
    exact decodeAtomicPlain_ok _ _ _ _ _ _
  | atomicFetchAdd32 | atomicFetchAdd64 | atomicFetchOr32 | atomicFetchOr64 | atomicFetchAnd32 | atomicFetchAnd64
  | atomicFetchXor32 | atomicFetchXor64 | atomicXchg32 | atomicXchg64 =>
    exact decodeAtomicFetch_ok _ _ _ _ _ _
  | lddw g v => rw [hsecond g v rfl]; exact decodeLddw_ok g v
  | ldabsw rest => exact congrArg (fun r => Except.ok (Instr.ldabsw r)) (rest_legacyFields 0x20 rest)
  | ldabsh rest => exact congrArg (fun r => Except.ok (Instr.ldabsh r)) (rest_legacyFields 0x28 rest)
  | ldabsb rest => exact congrArg (fun r => Except.ok (Instr.ldabsb r)) (rest_legacyFields 0x30 rest)
  | ldabsdw rest => exact congrArg (fun r => Except.ok (Instr.ldabsdw r)) (rest_legacyFields 0x38 rest)
  | ldindw rest => exact congrArg (fun r => Except.ok (Instr.ldindw r)) (rest_legacyFields 0x40 rest)
  | ldindh rest => exact congrArg (fun r => Except.ok (Instr.ldindh r)) (rest_legacyFields 0x48 rest)
  | ldindb rest => exact congrArg (fun r => Except.ok (Instr.ldindb r)) (rest_legacyFields 0x50 rest)
  | ldinddw rest => exact congrArg (fun r => Except.ok (Instr.ldinddw r)) (rest_legacyFields 0x58 rest)

/-- Every instruction but the wide one is one word (R70, R72). -/
theorem encode_of_ne_lddw {i : Instr} (h : ∀ g v, i ≠ .lddw g v) : encode i = [(encodeFields i).toWord] := by
  unfold encode
  split
  · exact absurd rfl (h _ _)
  · rfl

/-- Decoding gives back a well-formed instruction from its words, whatever words follow (R81). -/
theorem decodeWords_encode {neg : NegReading} {i : Instr} (rest : List Word) (h : i.wellFormed neg = true) :
    decodeWords neg (encode i ++ rest) = .ok i := by
  by_cases hw : ∃ g v, i = .lddw g v
  · obtain ⟨g, v, rfl⟩ := hw
    simpa [encode, decodeWords, decode] using decodeFields_encodeFields h fun _ _ he => by cases he; rfl
  · push Not at hw
    rw [encode_of_ne_lddw hw]
    simpa [decodeWords, decode] using decodeFields_encodeFields h fun g v he => absurd he (hw g v)

end Sys2Proof

namespace Sys2Proof.Machine

/-! ### The words of a program -/

/-- The eight bytes of a word, read low byte first, are the word (R43). -/
theorem joinBytes_bytesOfFields (f : Fields) : joinBytes .little (bytesOfFields f) = f.toWord := by
  obtain ⟨imm, off, src, dst, op⟩ := f
  have hi := imm.isLt; have ho := off.isLt; have hs := src.isLt; have hd := dst.isLt; have hp := op.isLt
  apply BitVec.eq_of_toNat_eq
  simp only [joinBytes, bytesOfFields, leNat, Fields.toWord, BitVec.toNat_ofNat, BitVec.toNat_append,
    BitVec.extractLsb'_toNat, Nat.shiftRight_eq_div_pow]
  rw [← Nat.shiftLeft_add_eq_or_of_lt ho, ← Nat.shiftLeft_add_eq_or_of_lt hs, ← Nat.shiftLeft_add_eq_or_of_lt hd,
    ← Nat.shiftLeft_add_eq_or_of_lt hp, ← Nat.shiftLeft_add_eq_or_of_lt hd]
  simp only [Nat.shiftLeft_eq]
  omega

/-- A step runs the instruction that the words from `pc` on decode to (R300). -/
theorem step_of_decodeWords {s : State} {i : Instr} (hr : Running s) (h0 : 0 ≤ s.pc)
    (hd : decodeWords s.par.negReading (s.par.program.drop s.pc.toNat) = .ok i) : step s = exec i s := by
  unfold Running at hr
  have hf := fetch_eq h0
  cases hp : s.par.program.drop s.pc.toNat with
  | nil => rw [hp] at hd; cases hd
  | cons w ws =>
    rw [hp] at hd hf
    rw [decodeWords] at hd
    simp only [step, hr, hf, hd]

/-! ### The invariant under each operation -/

/-- Recording an access keeps the invariant where the access, if its region is shared, lies in a shared region (R58 d). -/
theorem StateInv.record {s : State} {r : Region} {e : Event} (h : StateInv s) (he : r.shared = true → e.inShared s.par) :
    StateInv (s.record r e) := by
  cases hr : r.shared with
  | false => exact h.of_same (by simp) (by simp) (by simp [hr])
  | true =>
    refine ⟨by simpa using h.canonical, by simpa using h.inRegions, fun d hd => ?_⟩
    simp only [State.record_history, hr, if_true, List.mem_append, List.mem_singleton] at hd
    rw [State.record_par]
    rcases hd with hd | rfl
    · exact h.history d hd
    · exact he hr

/-- A granted access lies in its region (R46, R48). -/
theorem inside_of_checkAccess {par : Params} {kind : AccessKind} {addr : Word} {n : Nat} {r : Region}
    (h : checkAccess par kind addr n = .ok r) : r ∈ par.regions ∧ Inside r addr n := by
  obtain ⟨htop, -, hmem, hcovers, -⟩ := checkAccess_ok h
  exact ⟨hmem, (regionCovers_iff htop).1 hcovers⟩

/-- Storing inside a region keeps the invariant (R40, R48). -/
theorem StateInv.afterStore {s : State} {addr : Word} {n : Nat} {r : Region} (v : Word) (h : StateInv s)
    (hr : r ∈ s.par.regions) (hi : Inside r addr n) : StateInv (s.store addr n v) :=
  have ⟨hwf, hin⟩ := h.store v hr hi
  ⟨hwf, hin, h.history⟩

/-- An atomic operation inside a region keeps the invariant, whether it writes or not (R52). -/
theorem StateInv.afterRmw {s : State} {addr : Word} {n : Nat} {r : Region} (new : Option Word) (h : StateInv s)
    (hr : r ∈ s.par.regions) (hi : Inside r addr n) : StateInv (s.rmwState r addr n new) := by
  have hread : StateInv (s.afterRead r n) := h.of_same (by simp) (by simp) (by simp)
  have hnew : StateInv ((s.afterRead r n).storeNew addr n new) := by
    cases new with
    | none => exact hread
    | some v => exact hread.afterStore v (by simpa using hr) hi
  exact hnew.record fun hs => ⟨r, by simpa using hr, hs, hi⟩

/-- Every instruction keeps the invariant. -/
theorem Effect.stateInv {s t : State} {p : Profile} (h : Effect s p t) (hs : StateInv s) : StateInv t := by
  cases h with
  | fault | result | wide | jump | exit => exact hs.of_same rfl rfl rfl
  | branch => exact hs.of_same (by simp) (by simp) (by simp)
  | load r addr sz g v hk hd hc =>
    obtain ⟨hr, hi⟩ := inside_of_checkAccess hc
    have hread : StateInv (s.afterRead r sz.bytes) := hs.of_same (by simp) (by simp) (by simp)
    have hrec := hread.record (e := .read .thisRun addr sz.bytes v) fun hsh => ⟨r, by simpa using hr, hsh, hi⟩
    exact hrec.of_same rfl rfl rfl
  | store r addr sz v hk hc =>
    obtain ⟨hr, hi⟩ := inside_of_checkAccess hc
    have hrec := (hs.afterStore v hr hi).record (e := .write .thisRun addr sz.bytes (lowBytes sz.bytes v))
      fun hsh => ⟨r, hr, hsh, hi⟩
    exact hrec.of_same rfl rfl rfl
  | atomic r addr sz new hk hc =>
    obtain ⟨hr, hi⟩ := inside_of_checkAccess hc
    exact (hs.afterRmw new hr hi).of_same rfl rfl rfl
  | atomicResult r addr sz new g old hk hd hc =>
    obtain ⟨hr, hi⟩ := inside_of_checkAccess hc
    exact (hs.afterRmw new hr hi).of_same rfl rfl rfl
  | call f args ret w hk hd hr => exact (hs.afterHelper (.call hr)).of_same rfl rfl rfl

/-! ### The frame of memory and history -/

/-- Only a store, an atomic operation or a call changes memory (R40). -/
theorem Effect.mem_eq {s t : State} {p : Profile} (h : Effect s p t) (hk : p.kind ∉ [.store, .atomic, .call]) :
    t.mem = s.mem := by
  cases h with
  | fault | result | wide | jump | exit => rfl
  | branch | load => simp
  | store _ _ _ _ hk' | atomic _ _ _ _ hk' | atomicResult _ _ _ _ _ _ hk' | call _ _ _ _ hk' =>
    exact absurd (by simp [hk']) hk

/-- Only these and a load add to the history (R58; log 12). -/
theorem Effect.history_eq {s t : State} {p : Profile} (h : Effect s p t)
    (hk : p.kind ∉ [.load, .store, .atomic, .call]) : t.history = s.history := by
  cases h with
  | fault | result | wide | jump | exit => rfl
  | branch => simp
  | load _ _ _ _ _ hk' | store _ _ _ _ hk' | atomic _ _ _ _ hk' | atomicResult _ _ _ _ _ _ hk'
  | call _ _ _ _ hk' =>
    exact absurd (by simp [hk']) hk

/-! ### Called functions -/

theorem Memory.setCells_append (xs ys : List Host.Cell) : ∀ m : Memory,
    Memory.setCells m (xs ++ ys) = Memory.setCells (Memory.setCells m xs) ys := by
  induction xs with
  | nil => intro m; rfl
  | cons c xs ih => intro m; exact ih _

theorem Memory.get_setCells_ne {cs : List Host.Cell} {a : Nat} (h : ∀ c ∈ cs, c.1 ≠ a) : ∀ m : Memory,
    Memory.get (Memory.setCells m cs) a = Memory.get m a := by
  induction cs with
  | nil => intro m; rfl
  | cons c cs ih =>
    intro m
    rw [List.forall_mem_cons] at h
    rw [Memory.setCells, ih h.2, Memory.get_set_ne _ _ h.1.symm]

/-- Of several writes to one address the last decides. -/
theorem Memory.get_setCells_last (m : Memory) (before : List Host.Cell) (a : Nat) (b : Byte) {after : List Host.Cell}
    (h : ∀ c ∈ after, c.1 ≠ a) : Memory.get (Memory.setCells m (before ++ (a, b) :: after)) a = some b := by
  rw [Memory.setCells_append, Memory.setCells, Memory.get_setCells_ne h, Memory.get_set_same]

/-- Registers that hold values are read in order. -/
theorem readAll_of_holds {s : State} {gs : List GReg} {vs : List Word}
    (h : List.Forall₂ (fun g v => Holds s (.gpr g) v) gs vs) : s.readAll gs = .ok vs := by
  induction h with
  | nil => rfl
  | cons hg _ ih => rw [State.readAll, read_of_holds hg, ih]; rfl

/-- A called function that writes nothing and accesses no shared region leaves the state (R224). -/
theorem State.afterHelper_nothing (s : State) (known : List Word) : s.afterHelper ⟨known, [], [], s.draws⟩ = s := by
  simp [State.afterHelper, Memory.setCells]

/-! ### Loads, stores and atomic operations by their shared operation -/

theorem exec_loadOf (sz : Size) (dst : GReg) (src : Reg) (off : BitVec 16) :
    exec (loadOf sz dst src off) = loadReg sz dst src off := by cases sz <;> rfl

theorem exec_storeRegOf (sz : Size) (dst src : Reg) (off : BitVec 16) :
    exec (storeRegOf sz dst src off) = storeReg sz dst src off := by cases sz <;> rfl

theorem exec_storeImmOf (sz : Size) (dst : Reg) (off : BitVec 16) (imm : BitVec 32) :
    exec (storeImmOf sz dst off imm) = storeImm sz dst off imm := by cases sz <;> rfl

/-- The size of R51 that an atomic operation has. -/
def AtomicSize.size : AtomicSize → Size
  | .w => .w
  | .dw => .dw

@[simp] theorem AtomicSize.bytes_size (z : AtomicSize) : z.size.bytes = z.bytes := by cases z <;> rfl

/-- The operation of an atomic instruction on the words that hold its operands: `exec_simpleOf` and `exec_fetchOf` tie it
to `exec`. -/
def RmwOp.onWords : RmwOp → AtomicSize → Word → Word → Word
  | .add, .w => on32 (· + ·)
  | .or, .w => on32 (· ||| ·)
  | .and, .w => on32 (· &&& ·)
  | .xor, .w => on32 (· ^^^ ·)
  | .add, .dw => (· + ·)
  | .or, .dw => (· ||| ·)
  | .and, .dw => (· &&& ·)
  | .xor, .dw => (· ^^^ ·)

/-- What an exchange stores: `exec_exchangeOf` ties it to `exec`. -/
def AtomicSize.exchanged : AtomicSize → Word → Word → Word
  | .w => on32 fun _ v => v
  | .dw => fun _ v => v

theorem exec_simpleOf (z : AtomicSize) (op : RmwOp) (dst src : Reg) (off : BitVec 16) :
    exec (simpleOf z op dst src off) = atomicPlain z.size (op.onWords z) dst src off := by
  cases z <;> cases op <;> rfl

theorem exec_fetchOf (z : AtomicSize) (op : RmwOp) (dst : Reg) (src : GReg) (off : BitVec 16) :
    exec (fetchOf z op dst src off) = atomicFetch z.size (op.onWords z) dst src off := by
  cases z <;> cases op <;> rfl

theorem exec_exchangeOf (z : AtomicSize) (dst : Reg) (src : GReg) (off : BitVec 16) :
    exec (exchangeOf z dst src off) = atomicFetch z.size z.exchanged dst src off := by
  cases z <;> rfl

theorem exec_compareExchangeOf (z : AtomicSize) (dst src : Reg) (off : BitVec 16) :
    exec (compareExchangeOf z dst src off) = atomicCmpxchg z.size dst src off := by
  cases z <;> rfl

/-! ### Accesses -/

/-- The accesses whose alignment is checked (R47, R52). -/
theorem alignChecked_iff {par : Params} {kind : AccessKind} :
    alignChecked par kind = true ↔ kind = .atomic ∨ par.alignPolicy = .fault := by
  cases kind <;> simp [alignChecked]

/-- A granted write to an unshared region stores, and records nothing (R45, R58 d). -/
theorem memWrite_unshared {s : State} {a : Word} {r : Region} {sz : Size} (v : Word)
    (h : Access s.par .write r a sz.bytes) (hs : r.shared = false) :
    memWrite s a sz v = .ok (s.store a sz.bytes v) := by
  rw [memWrite, checkAccess_of_access sz.bytes_pos h]
  simp [State.record, hs]

/-- A load whose read succeeds puts the value read into its register (R231). -/
theorem loadReg_of_memRead {sz : Size} (dst : GReg) {src : Reg} {off : BitVec 16} {s t : State} {base v : Word}
    (h : s.read src = .ok base) (hm : memRead s (effAddr base off) sz = .ok (v, t)) :
    loadReg sz dst src off s = .next (t.put dst v).advance := by
  unfold loadReg; rw [h]; simp only [bind, Except.bind, hm]; rfl

/-! ### Parts of a stored value -/

/-- The address of byte `k` of an access that does not wrap. -/
theorem toNat_addr_add {a : Word} {k n : Nat} (h : a.toNat + n ≤ 2 ^ 64) (hk : k < n) :
    (a + BitVec.ofNat 64 k).toNat = a.toNat + k := by
  rw [BitVec.toNat_add, BitVec.toNat_ofNat]; omega

/-- The bytes of a part of an access are that part of its bytes. -/
theorem bytesAt_part (s : State) (a : Nat) {k m n : Nat} (h : k + m ≤ n) :
    s.bytesAt (a + k) m = ((s.bytesAt a n).drop k).take m := by
  simp only [bytesAt_eq]
  apply List.ext_getElem
  · simp; omega
  · intro j h1 h2; simp [Nat.add_assoc]

/-- A part of an access to a region that may also be read is a granted read (R48). -/
theorem Access.read_part {par : Params} {r : Region} {a : Word} {k m n : Nat} (h : Access par .write r a n)
    (hr : r.readable = true) (hm : 0 < m) (hk : k + m ≤ n) (ha : Aligned par .read (a + BitVec.ofNat 64 k) m) :
    Access par .read r (a + BitVec.ofNat 64 k) m := by
  obtain ⟨htop, hlo, hhi⟩ := h.inside
  have haddr := toNat_addr_add htop (show k < n by omega)
  exact ⟨h.separate, h.region, ⟨by omega, by omega, by omega⟩, hr, ha⟩

/-- The bytes of a state are those of its memory. -/
theorem bytesAt_of_mem {s t : State} (h : t.mem = s.mem) (a n : Nat) : t.bytesAt a n = s.bytesAt a n := by
  simp only [bytesAt_eq, State.byteAt, h]

/-- A read of a part of what was just stored in an unshared region gives that part of the bytes stored (R44, R45, R58 b),
and leaves the state. -/
theorem memRead_stored_part {s t : State} {a : Word} {r : Region} {k n : Nat} {sz : Size} {v : Word}
    (h : Access s.par .write r a n) (hs : r.shared = false) (hr : r.readable = true) (hm : t.mem = (s.store a n v).mem)
    (hp : t.par = s.par) (hk : k + sz.bytes ≤ n) (ha : Aligned s.par .read (a + BitVec.ofNat 64 k) sz.bytes) :
    memRead t (a + BitVec.ofNat 64 k) sz =
      .ok (joinBytes s.par.hostEndian (((splitBytes s.par.hostEndian n v).drop k).take sz.bytes), t) := by
  have hc := checkAccess_of_access sz.bytes_pos (h.read_part hr sz.bytes_pos hk ha)
  have haddr := toNat_addr_add h.inside.1 (show k < n by have := sz.bytes_pos; omega)
  have hb : t.bytesAt (a.toNat + k) sz.bytes = ((splitBytes s.par.hostEndian n v).drop k).take sz.bytes := by
    rw [bytesAt_of_mem hm, bytesAt_part _ _ hk, State.bytesAt_store_same]
  rw [memRead, hp, hc]
  simp [State.valueAt, State.afterRead, State.record, hs, haddr, hb, hp]

/-! ### The statements settled -/

/-- Settles O19: the step is a fault or an instruction, and every instruction keeps the invariant. -/
theorem stepKeepsInv : Obligations.StepKeepsInv := by
  intro s t hs h
  rcases step_next h with ⟨-, rfl⟩ | ⟨w, second, i, -, -, hi⟩
  · exact hs.of_same rfl rfl rfl
  · exact (exec_effect hi).stateInv hs

/-- Settles O11, by induction on the words. -/
theorem programBytesLittle : Obligations.ProgramBytesLittle := by
  intro fs
  induction fs with
  | nil => rfl
  | cons f fs ih =>
    have hcons : programOfBytes .little (bytesOfFields f ++ fs.flatMap bytesOfFields) =
        (programOfBytes .little (fs.flatMap bytesOfFields)).map (joinBytes .little (bytesOfFields f) :: ·) := rfl
    rw [List.flatMap_cons, hcons, ih, joinBytes_bytesOfFields]; rfl

/-- Settles O26, from the inversion of `exec`. -/
theorem memoryFrame : Obligations.MemoryFrame := fun _ _ _ h => ⟨(exec_effect h).mem_eq, (exec_effect h).history_eq⟩

/-- Settles O44: a called function keeps to its description, and of its writes to an address the last decides. -/
theorem callReturns : Obligations.CallReturns := by
  refine ⟨fun s imm h args ret w hf ha hr => ?_, fun s imm h a b hf hn hb ha hb' => ?_⟩
  · have hw : w.Within s h := .call hr
    refine ⟨_, callFunction_ok hf (readAll_of_holds ha) hr, rfl, fun c hc => helperMayWrite_iff.1 (hw.writes c hc),
      hw.events, fun a ha => ?_, fun before a b after he ha => ?_⟩
    · exact congrArg (·.getD (Config.launchByte a)) (Memory.get_setCells_ne ha s.mem)
    · have hget := Memory.get_setCells_last s.mem before a b ha
      rw [← he] at hget
      exact congrArg (·.getD (Config.launchByte a)) hget
  · have hargs : s.readAll (argRegs.take h.nargs.val) = .ok [a, b] := by
      rw [hn]; exact readAll_of_holds (.cons ha (.cons hb' .nil))
    have hcall : s.helperCall h [a, b] = some (a + b, ⟨[a, b], [], [], s.draws⟩) := by
      rw [State.helperCall, hb]; rfl
    have hsum : a + b = BitVec.ofNat 64 ((a.toNat + b.toNat) % 2 ^ 64) := by
      apply BitVec.eq_of_toNat_eq; simp
    refine (callFunction_ok hf hargs hcall).trans ?_
    rw [State.afterHelper_nothing, hsum]; rfl

/-- Settles O50: the registers are read, and the access check gives the fault. -/
theorem accessFaults : Obligations.AccessFaults := by
  refine ⟨fun s sz dst src off base f hb hf => ?_, fun s sz dst src off base v f hb hv hf => ?_,
    fun s sz dst off imm base f hb hf => ?_, fun s z op dst src off base v f hb hv hf => ?_,
    fun s z op dst src off base v f hb hv hf => ?_⟩
  · rw [exec_loadOf]
    exact loadReg_error _ _ (.inr ⟨base, read_of_holds hb, checkAccess_of_accessFault hf⟩)
  · rw [exec_storeRegOf]
    exact storeReg_error _ (.inr ⟨base, read_of_holds hb, .inr ⟨v, read_of_holds hv, checkAccess_of_accessFault hf⟩⟩)
  · rw [exec_storeImmOf]
    exact storeImm_error _ _ (.inr ⟨base, read_of_holds hb, checkAccess_of_accessFault hf⟩)
  · rw [← z.bytes_size] at hf
    have hc := checkAccess_of_accessFault hf
    rw [exec_simpleOf, exec_compareExchangeOf]
    exact ⟨atomicPlain_error _ _ (.inr ⟨base, read_of_holds hb, .inr ⟨v, read_of_holds hv, hc⟩⟩), fun c h0 =>
      atomicCmpxchg_error _ (.inr ⟨base, read_of_holds hb, .inr ⟨v, read_of_holds hv, .inr ⟨c, read_of_holds h0, hc⟩⟩⟩)⟩
  · rw [← z.bytes_size] at hf
    have hfault : ∀ F, atomicFetch z.size F dst src off s = .next (s.withFault f) := fun F =>
      atomicFetch_error _ F (.inr ⟨base, read_of_holds hb, .inr ⟨v, read_of_holds hv, checkAccess_of_accessFault hf⟩⟩)
    rw [exec_fetchOf, exec_exchangeOf]
    exact ⟨hfault _, hfault _⟩

/-- Settles O51: the read sees the whole of the bytes stored, and these are the low bytes of the value. -/
theorem storeThenLoad : Obligations.StoreThenLoad := by
  intro s sz dst src g off base v r hb hv hs hr h
  obtain ⟨t, ht⟩ : ∃ t, t = (s.store (effAddr base off) sz.bytes v).advance := ⟨_, rfl⟩
  have hstore : exec (storeRegOf sz dst src off) s = .next t := by
    rw [exec_storeRegOf, storeReg_ok sz (read_of_holds hb) (read_of_holds hv) (checkAccess_of_access sz.bytes_pos h), ht]
    simp [State.record, hs]
  have hbase : Holds t dst base := by rw [ht]; exact hb
  have hread : memRead t (effAddr base off) sz = .ok (lowBytes sz.bytes v, t) := by
    have hpart := memRead_stored_part (t := t) (k := 0) h hs hr (by rw [ht]; rfl) (by rw [ht]; rfl)
      (Nat.zero_add _).le (by rw [BitVec.add_zero]; exact h.aligned.imp_right fun ⟨hp, _⟩ => ⟨hp, nofun⟩)
    rwa [BitVec.add_zero, List.drop_zero, List.take_of_length_le (length_splitBytes _ _ _).le, joinBytes_splitBytes]
      at hpart
  refine ⟨t, hstore, ?_⟩
  rw [exec_loadOf]
  exact loadReg_of_memRead g (read_of_holds hbase) hread

/-- Settles O52: each read sees its part of the eight bytes stored. -/
theorem mixedWidth : Obligations.MixedWidth := by
  intro s a r hs hr hal h
  refine ⟨_, memWrite_unshared (sz := .dw) _ h hs, ?_⟩
  have part : ∀ (k : Nat) (sz : Size), k + sz.bytes ≤ 8 → (a + BitVec.ofNat 64 k).toNat % sz.bytes = 0 →
      memRead (s.store a 8 0x1122334455667788) (a + BitVec.ofNat 64 k) sz =
        .ok (joinBytes s.par.hostEndian (((splitBytes s.par.hostEndian 8 0x1122334455667788).drop k).take sz.bytes),
          s.store a 8 0x1122334455667788) := fun k sz hk ha => memRead_stored_part h hs hr rfl rfl hk (.inl ha)
  have hb := part 0 .b (by decide) (Nat.mod_one _)
  have hh := part 6 .h (by decide) (by
    rw [toNat_addr_add h.inside.1 (by decide)]; show (a.toNat + 6) % 2 = 0; omega)
  have hw := part 4 .w (by decide) (by
    rw [toNat_addr_add h.inside.1 (by decide)]; show (a.toNat + 4) % 4 = 0; omega)
  rw [BitVec.add_zero] at hb
  refine ⟨fun he => ?_, fun he => ?_⟩ <;>
  · rw [he] at hb hh hw
    exact ⟨hb, hh, hw⟩

/-- Settles O60: the stack lies below R10, and its size does not pass address 0. -/
theorem launchStack : Obligations.LaunchStack := by
  intro l h
  simp only [Launch.valid, Bool.and_eq_true, decide_eq_true_eq] at h
  obtain ⟨⟨⟨⟨⟨-, halign⟩, hsize⟩, -⟩, -⟩, -⟩ := h
  have hfp := l.fp.isLt
  have hbase : l.stack.base.toNat = l.fp.toNat - l.stackSize := by
    simp only [Launch.stack, BitVec.toNat_sub, BitVec.toNat_ofNat]
    omega
  refine ⟨List.mem_cons_self, ?_, rfl, rfl, rfl, rfl, halign⟩
  rw [hbase]
  exact Nat.sub_add_cancel hsize

/-- Settles O13: the words from `pc` on decode to the instruction. -/
theorem stepRunsEncoded : Obligations.StepRunsEncoded := by
  intro s i before after hr hpc hprog hwf
  refine step_of_decodeWords hr (by omega) ?_
  rw [hpc, hprog, Int.toNat_natCast, List.append_assoc, List.drop_left]
  exact decodeWords_encode after hwf

/-- Settles O47: sign extension is the integer modulo 2^64. -/
theorem effectiveAddress : Obligations.EffectiveAddress := by
  intro base off
  have hoff : (((off.signExtend 64).toNat : Nat) : Int) = off.toInt % 2 ^ 64 := by
    rw [BitVec.signExtend, BitVec.toNat_ofInt, Int.toNat_of_nonneg (Int.emod_nonneg _ (by decide))]; rfl
  rw [effAddr, BitVec.toNat_add]
  push_cast
  rw [hoff]
  omega

/-- Settles O57: past the wrap check, the alignment check decides, and no later check gives this fault. -/
theorem alignmentCheck : Obligations.AlignmentCheck := by
  intro par kind addr n htop hmis
  rw [← alignChecked_iff, checkAccess, if_neg (by omega)]
  by_cases hc : alignChecked par kind = true
  · rw [if_pos ⟨hmis, hc⟩]; simp [hc]
  · rw [if_neg fun h => hc h.2]
    split <;> simp [hc]

end Sys2Proof.Machine
end

section
/-! The statements about encoding (30_encoding.md): the refusals of the decoder kind by kind, and the round trips of decoder
and encoder. The settled statements stand at the end. -/

namespace Sys2Proof

open Machine

/-! ### Words and their fields -/

/-- Two halves of a word, as a number (R73). -/
theorem append_halves (hi lo : BitVec 32) : hi ++ lo = BitVec.ofNat 64 (hi.toNat * 2 ^ 32 + lo.toNat) := by
  apply BitVec.eq_of_toNat_eq
  have hhi := hi.isLt
  have hlo := lo.isLt
  rw [BitVec.toNat_append, ← Nat.shiftLeft_add_eq_or_of_lt hlo, Nat.shiftLeft_eq, BitVec.toNat_ofNat]
  omega

/-- The low half of a word is zero exactly if it is zero as a number (R88). -/
theorem extractLsb'_low_eq_zero_iff (v : Word) : v.extractLsb' 0 32 = 0 ↔ v.toNat % 2 ^ 32 = 0 := by
  rw [← BitVec.toNat_inj]; simp

@[simp] theorem Fields.toNat_off_ofWord (w : Word) : (Fields.ofWord w).off.toNat = w.toNat / 2 ^ 16 % 2 ^ 16 := by
  simp [Fields.ofWord, Nat.shiftRight_eq_div_pow]

/-- A field is the literal of its number. -/
theorem eq_ofNat_of_toNat_eq {w n : Nat} {x : BitVec w} (h : x.toNat = n) : x = BitVec.ofNat w n := by simp [← h]

/-- A word has no bit under a mask where each field of the word or of the mask is zero (R82). -/
theorem and_eq_zero_of_fields {w m : Word} (himm : (Fields.ofWord m).imm = 0 ∨ (Fields.ofWord w).imm = 0)
    (hoff : (Fields.ofWord m).off = 0 ∨ (Fields.ofWord w).off = 0)
    (hsrc : (Fields.ofWord m).src = 0 ∨ (Fields.ofWord w).src = 0)
    (hdst : (Fields.ofWord m).dst = 0 ∨ (Fields.ofWord w).dst = 0) (hop : (Fields.ofWord m).opcode = 0) :
    w &&& m = 0 := by
  have and_zero {n : Nat} {x y : BitVec n} (h : y = 0 ∨ x = 0) : x &&& y = 0 := by rcases h with rfl | rfl <;> simp
  rw [← Fields.toWord_ofWord w, ← Fields.toWord_ofWord m, Laws.EncodingMatchesTable.toWord_and, and_zero himm,
    and_zero hoff, and_zero hsrc, and_zero hdst, and_zero (.inl hop)]
  rfl

/-- The fields of a word with no bit under a mask are zero where the mask covers them (R82). -/
theorem Fields.zero_of_and {w m : Word} (h : w &&& m = 0) :
    (m.extractLsb' 32 32 = BitVec.allOnes 32 → (Fields.ofWord w).imm = 0) ∧
    (m.extractLsb' 16 16 = BitVec.allOnes 16 → (Fields.ofWord w).off = 0) ∧
    (m.extractLsb' 12 4 = BitVec.allOnes 4 → (Fields.ofWord w).src = 0) ∧
    (m.extractLsb' 8 4 = BitVec.allOnes 4 → (Fields.ofWord w).dst = 0) :=
  ⟨extractLsb'_eq_zero_of_and h, extractLsb'_eq_zero_of_and h, extractLsb'_eq_zero_of_and h,
    extractLsb'_eq_zero_of_and h⟩

/-! ### Register fields -/

/-- A field above 10 names no register (R83). -/
theorem usedReg_of_gt {b : BitVec 4} (h : 10 < b.toNat) (k : Reg → Decoded) : usedReg b k = .error .badRegister := by
  rw [usedReg, regOfField_none.2 h]

/-- Of two used fields one is above 10 (R83). -/
theorem usedReg_pair_of_gt {b c : BitVec 4} (h : 10 < b.toNat ∨ 10 < c.toNat) (k : Reg → Reg → Decoded) :
    (usedReg b fun d => usedReg c (k d)) = .error .badRegister := by
  by_cases hb : 10 < b.toNat
  · exact usedReg_of_gt hb _
  · obtain ⟨r, hr⟩ := usedReg_of_le (Nat.le_of_not_lt hb)
    rw [hr]
    exact usedReg_of_gt (h.resolve_left hb) _

/-- A field below 10 names a register that may be written (R86). -/
theorem writtenReg_of_lt {b : BitVec 4} (h : b.toNat < 10) :
    ∃ g, ∀ k, (usedReg b fun d => writtenReg d k) = k g := by
  cases hr : regOfField b with
  | none => exact absurd (regOfField_none.1 hr) (by omega)
  | some r =>
    cases r with
    | gpr g => exact ⟨g, fun k => by rw [usedReg, hr]; rfl⟩
    | r10 => rw [regOfField_r10.1 hr] at h; exact absurd h (by decide)

/-! ### Opcodes -/

/-- An opcode outside the map of R80 spells nothing (R84): every case of the decoder but the last is one of the map. -/
theorem decodeFields_of_not_spelled (neg : NegReading) {f : Fields} (second : Option Word)
    (h : f.opcode.toNat ∉ spelledOpcodes) : decodeFields neg f second = .error .illegalOpcode := by
  unfold decodeFields
  generalize f.opcode.toNat = n at h
  split
  rotate_right
  · rfl
  all_goals exact absurd (by decide) h

/-! ### The opcode map -/

/-- The instruction is well-formed, and the fields are those of its one word. -/
def OneWord (neg : NegReading) (f : Fields) (i : Instr) : Prop := i.wellFormed neg = true ∧ encode i = [f.toWord]

/-- The instruction is well-formed, and the fields are those of its one word, or of the first of its two. -/
def Spelled (neg : NegReading) (f : Fields) (second : Option Word) (i : Instr) : Prop :=
  i.wellFormed neg = true ∧ (encode i = [f.toWord] ∨ ∃ v, second = some v ∧ encode i = [f.toWord, v])

theorem OneWord.spelled {neg : NegReading} {f : Fields} {i : Instr} (second : Option Word) (h : OneWord neg f i) :
    Spelled neg f second i := ⟨h.1, .inl h.2⟩

/-- The decoders that the opcode map names (R79, R80), by opcode, each with the bits that its format requires to be zero
under `NEG_READING = literal` and with the words of the instructions that it makes. -/
inductive OpcodeFormat (neg : NegReading) (f : Fields) (second : Option Word) : BitVec 8 → Word → Decoded → Prop where
  | aluK {op} (c) (hc : ∀ g imm, OneWord neg ⟨imm, 0, 0, gregField g, op⟩ (c g imm)) :
    OpcodeFormat neg f second op 0xFFFFF000 (decodeAluK f c)
  | aluX {op} (c) (hc : ∀ g r, OneWord neg ⟨0, 0, regField r, gregField g, op⟩ (c g r)) :
    OpcodeFormat neg f second op 0xFFFFFFFFFFFF0000 (decodeAluX f c)
  | negK {op} (c) (hc : ∀ g imm, (c g imm).wellFormed neg = (decide (neg = .literal) || decide (imm = 0)) ∧
      encode (c g imm) = [Fields.toWord ⟨imm, 0, 0, gregField g, op⟩]) :
    OpcodeFormat neg f second op 0xFFFFF000 (decodeNegK neg f c)
  | negX {op} (c) (hc : ∀ g r, (c g r).wellFormed neg = decide (neg = .literal) ∧
      encode (c g r) = [Fields.toWord ⟨0, 0, regField r, gregField g, op⟩]) :
    OpcodeFormat neg f second op 0xFFFFFFFFFFFF0000 (decodeNegX neg f c)
  | byteSwap {op} (c16 c32 c64) (h16 : ∀ g, OneWord neg ⟨16, 0, 0, gregField g, op⟩ (c16 g))
      (h32 : ∀ g, OneWord neg ⟨32, 0, 0, gregField g, op⟩ (c32 g))
      (h64 : ∀ g, OneWord neg ⟨64, 0, 0, gregField g, op⟩ (c64 g)) :
    OpcodeFormat neg f second op 0xFFFFF000 (decodeEnd f c16 c32 c64)
  | ja : OpcodeFormat neg f second 0x05 0xFFFFFFFF0000FF00 (decodeJa f)
  | jcondK {op} (c) (hc : ∀ r imm off, OneWord neg ⟨imm, off, 0, regField r, op⟩ (c r imm off)) :
    OpcodeFormat neg f second op 0xF000 (decodeJcondK f c)
  | twoRead {op} (c) (hc : ∀ r q off, OneWord neg ⟨0, off, regField q, regField r, op⟩ (c r q off)) :
    OpcodeFormat neg f second op 0xFFFFFFFF00000000 (decodeTwoRead f c)
  | call : OpcodeFormat neg f second 0x85 0xFFFFFF00 (decodeCall f)
  | exit : OpcodeFormat neg f second 0x95 0xFFFFFFFFFFFFFF00 (decodeExit f)
  | ldx {op} (c) (hc : ∀ g r off, OneWord neg ⟨0, off, regField r, gregField g, op⟩ (c g r off)) :
    OpcodeFormat neg f second op 0xFFFFFFFF00000000 (decodeLdx f c)
  | st {op} (c) (hc : ∀ r off imm, OneWord neg ⟨imm, off, 0, regField r, op⟩ (c r off imm)) :
    OpcodeFormat neg f second op 0xF000 (decodeSt f c)
  | atomic32 : OpcodeFormat neg f second 0xc3 0 (decodeAtomic32 f)
  | atomic64 : OpcodeFormat neg f second 0xdb 0 (decodeAtomic64 f)
  | lddw : OpcodeFormat neg f second 0x18 0xFFFFF000 (decodeLddw f second)
  | legacy {op} (c : BitVec 56 → Instr) (hc : ∀ rest, OneWord neg (legacyFields op rest) (c rest)) :
    OpcodeFormat neg f second op 0 (.ok (c f.rest))

/-- Each of the 124 opcodes of the map has its decoder, and the encoder writes back the same opcode (R80). -/
theorem decodeFields_opcodeFormat (neg : NegReading) (f : Fields) (second : Option Word)
    (hs : f.opcode.toNat ∈ spelledOpcodes) :
    OpcodeFormat neg f second f.opcode (unusedMask f.opcode.toNat) (decodeFields neg f second) := by
  obtain ⟨n, hn⟩ : ∃ n, f.opcode.toNat = n := ⟨_, rfl⟩
  have hop : f.opcode = BitVec.ofNat 8 n := eq_ofNat_of_toNat_eq hn
  unfold decodeFields
  rw [hn] at hs ⊢
  rw [hop]
  clear hn hop
  fin_cases hs <;> constructor <;> intros <;> exact ⟨rfl, rfl⟩

/-! ### Unused fields and register numbers -/

/-- A condition on unused fields fails where it would make a non-zero masked word zero (R82). -/
theorem mustBeZero_of_masked {z : Bool} {w m : Word} (k : Decoded) (h : w &&& m ≠ 0) (hz : z = true → w &&& m = 0) :
    mustBeZero z k = .error .nonzeroUnusedField := by
  cases z with
  | true => exact absurd (hz rfl) h
  | false => rfl

/-- The check of formats ALU_K and END. -/
theorem mustBeZero_src_off {w : Word} (h : w &&& 0xFFFFF000 ≠ 0) (k : Decoded) :
    mustBeZero ((Fields.ofWord w).src == 0 && (Fields.ofWord w).off == 0) k = .error .nonzeroUnusedField := by
  refine mustBeZero_of_masked k h fun hz => ?_
  simp only [Bool.and_eq_true, beq_iff_eq] at hz
  obtain ⟨hsrc, hoff⟩ := hz
  exact and_eq_zero_of_fields (.inl rfl) (.inr hoff) (.inr hsrc) (.inl rfl) rfl

/-- The check of format ALU_X. -/
theorem mustBeZero_off_imm {w : Word} (h : w &&& 0xFFFFFFFFFFFF0000 ≠ 0) (k : Decoded) :
    mustBeZero ((Fields.ofWord w).off == 0 && (Fields.ofWord w).imm == 0) k = .error .nonzeroUnusedField := by
  refine mustBeZero_of_masked k h fun hz => ?_
  simp only [Bool.and_eq_true, beq_iff_eq] at hz
  obtain ⟨hoff, himm⟩ := hz
  exact and_eq_zero_of_fields (.inr himm) (.inr hoff) (.inl rfl) (.inl rfl) rfl

/-- A word with a one bit in an unused field of its format (R82); under opcode 0x18 src_reg is checked apart (R88). -/
theorem OpcodeFormat.unused {w m : Word} {second : Option Word} {op : BitVec 8} {d : Decoded}
    (h : OpcodeFormat .literal (Fields.ofWord w) second op m d) (hm : w &&& m ≠ 0)
    (hwide : op = 0x18 → (Fields.ofWord w).src = 0) : d = .error .nonzeroUnusedField := by
  cases h with
  | aluK | byteSwap => exact mustBeZero_src_off hm _
  | negK => exact (mustBeZero_true _).trans (mustBeZero_src_off hm _)
  | aluX | negX => exact mustBeZero_off_imm hm _
  | ja =>
    refine mustBeZero_of_masked _ hm fun hz => ?_
    simp only [Bool.and_eq_true, beq_iff_eq] at hz
    obtain ⟨⟨hdst, hsrc⟩, himm⟩ := hz
    exact and_eq_zero_of_fields (.inr himm) (.inl rfl) (.inr hsrc) (.inr hdst) rfl
  | jcondK | st =>
    refine mustBeZero_of_masked _ hm fun hz => ?_
    exact and_eq_zero_of_fields (.inl rfl) (.inl rfl) (.inr (beq_iff_eq.1 hz)) (.inl rfl) rfl
  | twoRead | ldx =>
    refine mustBeZero_of_masked _ hm fun hz => ?_
    exact and_eq_zero_of_fields (.inr (beq_iff_eq.1 hz)) (.inl rfl) (.inl rfl) (.inl rfl) rfl
  | call =>
    refine mustBeZero_of_masked _ hm fun hz => ?_
    simp only [Bool.and_eq_true, beq_iff_eq] at hz
    obtain ⟨⟨hdst, hsrc⟩, hoff⟩ := hz
    exact and_eq_zero_of_fields (.inl rfl) (.inr hoff) (.inr hsrc) (.inr hdst) rfl
  | exit =>
    refine mustBeZero_of_masked _ hm fun hz => ?_
    simp only [Bool.and_eq_true, beq_iff_eq] at hz
    obtain ⟨⟨⟨hdst, hsrc⟩, hoff⟩, himm⟩ := hz
    exact and_eq_zero_of_fields (.inr himm) (.inr hoff) (.inr hsrc) (.inr hdst) rfl
  | atomic32 | atomic64 | legacy => exact absurd BitVec.and_zero hm
  | lddw =>
    have hsrc := hwide rfl
    rw [decodeLddw, if_pos (beq_iff_eq.2 hsrc)]
    refine mustBeZero_of_masked _ hm fun hz => ?_
    exact and_eq_zero_of_fields (.inl rfl) (.inr (beq_iff_eq.1 hz)) (.inr hsrc) (.inl rfl) rfl

/-- An atomic operation checks both register numbers, whatever imm selects (R83, R81 step 3). -/
theorem decodeAtomic_badRegister {f : Fields} (h : 10 < f.dst.toNat ∨ 10 < f.src.toNat) :
    decodeAtomic32 f = .error .badRegister ∧ decodeAtomic64 f = .error .badRegister := by
  unfold decodeAtomic32 decodeAtomic64
  constructor <;> split <;> exact usedReg_pair_of_gt h _

/-- A format with its unused fields zero and a register number above 10 (R83). -/
theorem HasFormat.badRegister {w m : Word} {second : Option Word} {b : Bool} {d : Decoded}
    (hf : HasFormat (Fields.ofWord w) second m b d) (hm : w &&& m = 0)
    (hr : 10 < (Fields.ofWord w).dst.toNat ∨ 10 < (Fields.ofWord w).src.toNat) : d = .error .badRegister := by
  obtain ⟨imm, off, src, dst⟩ := Fields.zero_of_and hm
  have dst_of_src (h : (Fields.ofWord w).src = 0) : 10 < (Fields.ofWord w).dst.toNat :=
    hr.resolve_right (by rw [h]; decide)
  have not_both_zero (hd : (Fields.ofWord w).dst = 0) (hs : (Fields.ofWord w).src = 0) : False := by
    simp [hd, hs] at hr
  cases hf with
  | aluK | byteSwap => simp [decodeAluK, decodeEnd, src rfl, off rfl, usedReg_of_gt (dst_of_src (src rfl))]
  | aluX => simp [decodeAluX, off rfl, imm rfl, usedReg_pair_of_gt hr]
  | jcondK | st => simp [decodeJcondK, decodeSt, src rfl, usedReg_of_gt (dst_of_src (src rfl))]
  | twoRead | ldx => simp [decodeTwoRead, decodeLdx, imm rfl, usedReg_pair_of_gt hr]
  | ja | call | exit => exact (not_both_zero (dst rfl) (src rfl)).elim
  | atomic32 => exact (decodeAtomic_badRegister hr).1
  | atomic64 => exact (decodeAtomic_badRegister hr).2
  | lddw => simp [decodeLddw, src rfl, off rfl, usedReg_of_gt (dst_of_src (src rfl))]

/-! ### Selectors in imm -/

/-- A byte swap in order otherwise, whose imm is no width (R160). -/
theorem decodeEnd_badSwapWidth {f : Fields} (c16 c32 c64 : GReg → Instr) (hsrc : f.src = 0) (hoff : f.off = 0)
    (hdst : f.dst.toNat < 10) (himm : f.imm.toNat ∉ [16, 32, 64]) :
    decodeEnd f c16 c32 c64 = .error .badSwapWidth := by
  obtain ⟨g, hg⟩ := writtenReg_of_lt hdst
  have hzero : (f.src == 0 && f.off == 0) = true := by rw [hsrc, hoff]; rfl
  rw [decodeEnd, hzero, mustBeZero_true, hg]
  split <;> simp_all

/-- Beside the ten values of R250 no imm selects an atomic operation. -/
theorem decodeAtomic_of_not_selected {f : Fields} (himm : f.imm.toNat ∉ atomicImms) :
    decodeAtomic32 f = decodeAtomicBad f ∧ decodeAtomic64 f = decodeAtomicBad f := by
  unfold decodeAtomic32 decodeAtomic64
  constructor <;> split <;> simp_all [atomicImms]

/-- An atomic word with register numbers in order whose imm selects no operation (R250). -/
theorem decodeAtomic_badAtomicOp {f : Fields} (hdst : f.dst.toNat ≤ 10) (hsrc : f.src.toNat ≤ 10)
    (himm : f.imm.toNat ∉ atomicImms) :
    decodeAtomic32 f = .error .badAtomicOp ∧ decodeAtomic64 f = .error .badAtomicOp := by
  have hbad : decodeAtomicBad f = .error .badAtomicOp := by
    obtain ⟨d, hd⟩ := usedReg_of_le hdst
    obtain ⟨s, hs⟩ := usedReg_of_le hsrc
    rw [decodeAtomicBad, hd, hs]
  obtain ⟨h32, h64⟩ := decodeAtomic_of_not_selected himm
  rw [h32, h64]
  exact ⟨hbad, hbad⟩

/-! ### Wide instructions -/

/-- Opcode 0x18 is the wide instruction, under either reading of BPF_NEG (R72, R80). -/
theorem decode_wide (neg : NegReading) {w : Word} (second : Option Word) (h : w.toNat % 256 = 0x18) :
    decode neg w second = decodeLddw (Fields.ofWord w) second := by
  have ho : (Fields.ofWord w).opcode.toNat = 0x18 := by simpa using h
  unfold decode decodeFields; rw [ho]; rfl

/-- A wide instruction with its first word in order is decided by its second (R73, R88). -/
theorem decodeLddw_inOrder {w : Word} (hm : w &&& 0xFFFFF000 = 0) (hd : w.toNat / 2 ^ 8 % 16 < 10) :
    ∃ g, decodeLddw (Fields.ofWord w) none = .error .truncatedWideInstruction ∧
      ∀ v, decodeLddw (Fields.ofWord w) (some v) =
        if v.extractLsb' 0 32 = 0 then .ok (.lddw g (v.extractLsb' 32 32 ++ (Fields.ofWord w).imm))
        else .error .badPseudoInstruction := by
  obtain ⟨-, off, src, -⟩ := Fields.zero_of_and hm
  obtain ⟨g, hg⟩ := writtenReg_of_lt (b := (Fields.ofWord w).dst) (by simpa using hd)
  exact ⟨g, by simp [decodeLddw, off rfl, src rfl, hg], fun v => by simp [decodeLddw, off rfl, src rfl, hg]⟩

/-! ### Encoding what was decoded -/

/-- The decoders that the ten values of imm select, each with the words of the instructions it makes (R250). -/
inductive AtomicFormat (neg : NegReading) (f : Fields) (op : BitVec 8) : Decoded → Prop where
  | plain (c) (hc : ∀ r q off, OneWord neg ⟨f.imm, off, regField q, regField r, op⟩ (c r q off)) :
    AtomicFormat neg f op (decodeAtomicPlain f c)
  | fetch (c) (hc : ∀ r g off, OneWord neg ⟨f.imm, off, gregField g, regField r, op⟩ (c r g off)) :
    AtomicFormat neg f op (decodeAtomicFetch f c)
  | bad : AtomicFormat neg f op (decodeAtomicBad f)

/-- Each of the ten values of imm has its decoder, and the encoder writes back the same opcode and imm (R250). -/
theorem decodeAtomic_atomicFormat (neg : NegReading) (f : Fields) :
    AtomicFormat neg f 0xc3 (decodeAtomic32 f) ∧ AtomicFormat neg f 0xdb (decodeAtomic64 f) := by
  by_cases hs : f.imm.toNat ∈ atomicImms
  · obtain ⟨n, hn⟩ : ∃ n, f.imm.toNat = n := ⟨_, rfl⟩
    have himm : f.imm = BitVec.ofNat 32 n := eq_ofNat_of_toNat_eq hn
    unfold decodeAtomic32 decodeAtomic64
    rw [hn] at hs ⊢
    clear hn
    fin_cases hs <;> constructor <;> constructor <;> intros <;> rw [himm] <;> exact ⟨rfl, rfl⟩
  · obtain ⟨h32, h64⟩ := decodeAtomic_of_not_selected hs
    rw [h32, h64]
    exact ⟨.bad, .bad⟩

/-- An atomic word that decodes is the word of its instruction. -/
theorem AtomicFormat.oneWord {neg : NegReading} {f : Fields} {d : Decoded} {i : Instr}
    (h : AtomicFormat neg f f.opcode d) (hd : d = .ok i) : OneWord neg f i := by
  obtain ⟨imm, off, src, dst, op⟩ := f
  cases h with
  | plain c hc =>
    simp only [decodeAtomicPlain, usedReg_ok, Except.ok.injEq] at hd
    obtain ⟨r, rfl, q, rfl, rfl⟩ := hd
    exact hc r q off
  | fetch c hc =>
    simp only [decodeAtomicFetch, usedReg_ok, writtenReg_ok, Except.ok.injEq] at hd
    obtain ⟨r, rfl, -, rfl, g, rfl, rfl⟩ := hd
    exact hc r g off
  | bad => simp [decodeAtomicBad, usedReg_ok] at hd

/-- The rest of a word, made fields again, is the fields it was taken from (R282, R283). -/
theorem legacyFields_rest (f : Fields) : legacyFields f.opcode f.rest = f := by
  have hrest {a n : Nat} (ha : 8 ≤ a) : f.toWord.extractLsb' a n = f.rest.extractLsb' (a - 8) n :=
    BitVec.extractLsb'_append_eq_of_le ha
  calc legacyFields f.opcode f.rest = { Fields.ofWord f.toWord with opcode := f.opcode } := by
        simp [legacyFields, Fields.ofWord, hrest]
    _ = f := by rw [Fields.ofWord_toWord]

/-- A second word whose low half is zero is the pseudo instruction of its high half (R72, R73). -/
theorem pseudoWord_append {v : Word} (lo : BitVec 32) (h : v.extractLsb' 0 32 = 0) :
    pseudoWord (v.extractLsb' 32 32 ++ lo) = v := by
  rw [pseudoWord, BitVec.extractLsb'_append_eq_left, ← h]
  exact BitVec.extractLsb'_append_extractLsb'

/-- A wide instruction that decodes is two words (R72, R88). -/
theorem decodeLddw_spelled {neg : NegReading} {f : Fields} {second : Option Word} {i : Instr} (hop : f.opcode = 0x18)
    (hd : decodeLddw f second = .ok i) : Spelled neg f second i := by
  obtain ⟨imm, off, src, dst, op⟩ := f
  unfold decodeLddw at hd
  split at hd
  · next hsrc =>
    simp only [mustBeZero_ok, usedReg_ok, writtenReg_ok, beq_iff_eq] at hsrc hd
    obtain ⟨rfl, -, rfl, g, rfl, hd⟩ := hd
    subst hop hsrc
    split at hd
    · cases hd
    · next v =>
      split at hd
      · next hlow =>
        cases hd
        refine ⟨rfl, .inr ⟨v, rfl, ?_⟩⟩
        rw [encode, encodeFields, pseudoWord_append imm hlow, BitVec.extractLsb'_append_eq_right]; rfl
      · cases hd
  · cases hd

/-- The fields that format ALU_K decodes (R79). -/
theorem fields_of_decodeAluK {imm : BitVec 32} {off : BitVec 16} {src dst : BitVec 4} {op : BitVec 8}
    {c : GReg → BitVec 32 → Instr} {i : Instr} (hd : decodeAluK ⟨imm, off, src, dst, op⟩ c = .ok i) :
    ∃ g, i = c g imm ∧ off = 0 ∧ src = 0 ∧ dst = gregField g := by
  simp only [decodeAluK, mustBeZero_ok, usedReg_ok, writtenReg_ok, Bool.and_eq_true, beq_iff_eq,
    Except.ok.injEq] at hd
  obtain ⟨⟨hsrc, hoff⟩, -, hdst, g, rfl, rfl⟩ := hd
  exact ⟨g, rfl, hoff, hsrc, hdst⟩

/-- The fields that format ALU_X decodes (R79). -/
theorem fields_of_decodeAluX {imm : BitVec 32} {off : BitVec 16} {src dst : BitVec 4} {op : BitVec 8}
    {c : GReg → Reg → Instr} {i : Instr} (hd : decodeAluX ⟨imm, off, src, dst, op⟩ c = .ok i) :
    ∃ g r, i = c g r ∧ imm = 0 ∧ off = 0 ∧ src = regField r ∧ dst = gregField g := by
  simp only [decodeAluX, mustBeZero_ok, usedReg_ok, writtenReg_ok, Bool.and_eq_true, beq_iff_eq,
    Except.ok.injEq] at hd
  obtain ⟨⟨hoff, himm⟩, -, hdst, r, hsrc, g, rfl, rfl⟩ := hd
  exact ⟨g, r, rfl, himm, hoff, hsrc, hdst⟩

/-- What the decoder of an opcode gives is spelled by the fields it was read from. -/
theorem OpcodeFormat.spelled {neg : NegReading} {f : Fields} {second : Option Word} {m : Word} {d : Decoded} {i : Instr}
    (h : OpcodeFormat neg f second f.opcode m d) (hd : d = .ok i) : Spelled neg f second i := by
  obtain ⟨imm, off, src, dst, op⟩ := f
  cases h with
  | aluK c hc =>
    obtain ⟨g, rfl, rfl, rfl, rfl⟩ := fields_of_decodeAluK hd
    exact (hc g imm).spelled second
  | aluX c hc =>
    obtain ⟨g, r, rfl, rfl, rfl, rfl, rfl⟩ := fields_of_decodeAluX hd
    exact (hc g r).spelled second
  | negK c hc =>
    obtain ⟨hz, hd⟩ := mustBeZero_ok.1 hd
    obtain ⟨g, rfl, rfl, rfl, rfl⟩ := fields_of_decodeAluK hd
    exact ⟨(hc g imm).1.trans hz, .inl (hc g imm).2⟩
  | negX c hc =>
    cases neg with
    | negateDst => cases hd
    | literal =>
      obtain ⟨g, r, rfl, rfl, rfl, rfl, rfl⟩ := fields_of_decodeAluX hd
      exact OneWord.spelled second (hc g r)
  | byteSwap c16 c32 c64 h16 h32 h64 =>
    simp only [decodeEnd, mustBeZero_ok, usedReg_ok, writtenReg_ok, Bool.and_eq_true, beq_iff_eq] at hd
    obtain ⟨⟨rfl, rfl⟩, -, rfl, g, rfl, hd⟩ := hd
    split at hd
    · next h => rw [eq_ofNat_of_toNat_eq h]; cases hd; exact (h16 g).spelled second
    · next h => rw [eq_ofNat_of_toNat_eq h]; cases hd; exact (h32 g).spelled second
    · next h => rw [eq_ofNat_of_toNat_eq h]; cases hd; exact (h64 g).spelled second
    · cases hd
  | ja =>
    simp only [decodeJa, mustBeZero_ok, Bool.and_eq_true, beq_iff_eq, Except.ok.injEq] at hd
    obtain ⟨⟨⟨rfl, rfl⟩, rfl⟩, rfl⟩ := hd
    exact ⟨rfl, .inl rfl⟩
  | jcondK c hc =>
    simp only [decodeJcondK, mustBeZero_ok, usedReg_ok, beq_iff_eq, Except.ok.injEq] at hd
    obtain ⟨rfl, r, rfl, rfl⟩ := hd
    exact (hc r imm off).spelled second
  | twoRead c hc =>
    simp only [decodeTwoRead, mustBeZero_ok, usedReg_ok, beq_iff_eq, Except.ok.injEq] at hd
    obtain ⟨rfl, r, rfl, q, rfl, rfl⟩ := hd
    exact (hc r q off).spelled second
  | call =>
    simp only [decodeCall, mustBeZero_ok, Bool.and_eq_true, beq_iff_eq, Except.ok.injEq] at hd
    obtain ⟨⟨⟨rfl, rfl⟩, rfl⟩, rfl⟩ := hd
    exact ⟨rfl, .inl rfl⟩
  | exit =>
    simp only [decodeExit, mustBeZero_ok, Bool.and_eq_true, beq_iff_eq, Except.ok.injEq] at hd
    obtain ⟨⟨⟨⟨rfl, rfl⟩, rfl⟩, rfl⟩, rfl⟩ := hd
    exact ⟨rfl, .inl rfl⟩
  | ldx c hc =>
    simp only [decodeLdx, mustBeZero_ok, usedReg_ok, writtenReg_ok, beq_iff_eq, Except.ok.injEq] at hd
    obtain ⟨rfl, -, rfl, r, rfl, g, rfl, rfl⟩ := hd
    exact (hc g r off).spelled second
  | st c hc =>
    simp only [decodeSt, mustBeZero_ok, usedReg_ok, beq_iff_eq, Except.ok.injEq] at hd
    obtain ⟨rfl, r, rfl, rfl⟩ := hd
    exact (hc r off imm).spelled second
  | atomic32 => exact ((decodeAtomic_atomicFormat neg _).1.oneWord hd).spelled second
  | atomic64 => exact ((decodeAtomic_atomicFormat neg _).2.oneWord hd).spelled second
  | lddw => exact decodeLddw_spelled rfl hd
  | legacy c hc =>
    cases hd
    have h := hc (Fields.rest ⟨imm, off, src, dst, op⟩)
    rw [legacyFields_rest ⟨imm, off, src, dst, op⟩] at h
    exact h.spelled second

end Sys2Proof

namespace Sys2Proof.Machine

/-! ### The statements settled -/

/-- Settles O1: `decodeWords_encode` goes through the instructions by their formats. -/
theorem decodeOfEncode : Obligations.DecodeOfEncode := fun _ _ rest h => decodeWords_encode rest h

/-- Settles O2: an opcode of the map has a decoder whose instructions encode to the word; no other opcode decodes. -/
theorem encodeOfDecode : Obligations.EncodeOfDecode := by
  intro neg w second i hd
  by_cases hs : (Fields.ofWord w).opcode.toNat ∈ spelledOpcodes
  · have h := (decodeFields_opcodeFormat neg (Fields.ofWord w) second hs).spelled hd
    rwa [Spelled, Fields.toWord_ofWord] at h
  · rw [decode, decodeFields_of_not_spelled neg second hs] at hd
    cases hd

/-- Settles O5: by the cases of the decoder; the count is a finite check. -/
theorem illegalOpcodeRefused : Obligations.IllegalOpcodeRefused := by
  refine ⟨fun neg w second h => decodeFields_of_not_spelled neg second (by simpa using h), rfl, by decide⟩

/-- Settles O6: by the format of the opcode. -/
theorem unusedFieldRefused : Obligations.UnusedFieldRefused := by
  intro w second hs hm hwide
  have h := decodeFields_opcodeFormat .literal (Fields.ofWord w) second (by simpa using hs)
  rw [Fields.toNat_opcode_ofWord] at h
  refine h.unused hm fun hop => ?_
  have ho : w.toNat % 256 = 0x18 := by rw [← Fields.toNat_opcode_ofWord, hop]; rfl
  apply BitVec.eq_of_toNat_eq
  rw [Fields.toNat_src_ofWord, hwide ho]; rfl

/-- Settles O7: by the format of the opcode. -/
theorem badRegisterRefused : Obligations.BadRegisterRefused := by
  intro w second hs hl hm hr
  have hf := decodeFields_format (Fields.ofWord w) second (by simpa using hs) (by simpa using hl)
  rw [Fields.toNat_opcode_ofWord] at hf
  exact hf.badRegister hm (by simpa using hr)

/-- Settles O9: each of the four opcodes in turn. -/
theorem badSelectorRefused : Obligations.BadSelectorRefused := by
  refine ⟨fun neg w second ho hm hd hi => ?_, fun neg w second ho hd hs hi => ?_⟩
  · have hmask : w &&& 0xFFFFF000 = 0 := by rcases ho with ho | ho <;> rwa [ho] at hm
    obtain ⟨-, off, src, -⟩ := Fields.zero_of_and hmask
    have hbad (c16 c32 c64) : decodeEnd (Fields.ofWord w) c16 c32 c64 = .error .badSwapWidth :=
      decodeEnd_badSwapWidth c16 c32 c64 (src rfl) (off rfl) (by simpa using hd) (by simpa using hi)
    rw [← Fields.toNat_opcode_ofWord] at ho
    unfold decode decodeFields
    rcases ho with ho | ho <;> rw [ho] <;> exact hbad _ _ _
  · obtain ⟨h32, h64⟩ := decodeAtomic_badAtomicOp (f := Fields.ofWord w) (by simpa using hd) (by simpa using hs)
      (by simpa using hi)
    rw [← Fields.toNat_opcode_ofWord] at ho
    unfold decode decodeFields
    rcases ho with ho | ho <;> rw [ho]
    · exact h32
    · exact h64

/-- Settles O10: the checks of R88 in their order. -/
theorem wideInstructionChecks : Obligations.WideInstructionChecks := by
  refine ⟨fun neg w second ho hs => ?_, fun neg w ho hm hd => ?_, fun neg w v ho hm hd hv => ?_,
    fun neg w v ho hm hd hv => ?_⟩
  · have hsrc : ¬ ((Fields.ofWord w).src == 0) = true := by
      rw [beq_iff_eq, ← BitVec.toNat_inj]; simpa using hs
    rw [decode_wide neg second ho, decodeLddw, if_neg hsrc]
  · obtain ⟨g, hnone, -⟩ := decodeLddw_inOrder hm hd
    rw [decode_wide neg none ho, hnone]
  · obtain ⟨g, -, hsome⟩ := decodeLddw_inOrder hm hd
    rw [decode_wide neg (some v) ho, hsome, if_neg fun h => hv ((extractLsb'_low_eq_zero_iff v).1 h)]
  · obtain ⟨g, -, hsome⟩ := decodeLddw_inOrder hm hd
    refine ⟨g, ?_⟩
    rw [decode_wide neg (some v) ho, hsome, if_pos ((extractLsb'_low_eq_zero_iff v).2 hv), append_halves,
      Fields.toNat_imm_ofWord, show (v.extractLsb' 32 32).toNat = _ from Fields.toNat_imm_ofWord v]

/-- Settles O3: the fields are bit positions, and the word is put together from them. -/
theorem wordFields : Obligations.WordFields := fun w =>
  ⟨Fields.toNat_imm_ofWord w, Fields.toNat_off_ofWord w, Fields.toNat_src_ofWord w, Fields.toNat_dst_ofWord w,
    Fields.toNat_opcode_ofWord w, Fields.toWord_ofWord w⟩

/-- Settles O12: it is the rule by which O13 was settled. -/
theorem stepRunsDecoded : Obligations.StepRunsDecoded := fun _ _ hr h0 hd => step_of_decodeWords hr h0 hd

/-- Settles O39: the two immediates are the halves of the value, and the slots passed are counted one by one. -/
theorem lddwResult : Obligations.LddwResult := by
  intro s dst imm next
  rw [← append_halves]
  have hpc : s.pc + 1 + 1 = s.pc + 2 := by omega
  simp only [exec, execLddw, State.advance, State.put, hpc]

end Sys2Proof.Machine
end

section
/-! The statements about arithmetic (40_alu.md): what each operation computes on numbers, the four forms of an operation
proved once for every operation, the shifts, and BPF_NEG. The settled statements stand at the end. -/

namespace Sys2Proof

open Machine

/-! ### Decoding -/

/-- The one word of a well-formed instruction decodes to it (R81). -/
theorem decode_of_encode {neg : NegReading} {i : Instr} {w : Word} (h : i.wellFormed neg = true) (hw : encode i = [w]) :
    decode neg w none = .ok i := by
  have hd := decodeWords_encode [] h
  rwa [hw] at hd

/-- The two words of a well-formed wide instruction decode to it (R72, R81). -/
theorem decode_of_encode_wide {neg : NegReading} {i : Instr} {w v : Word} (h : i.wellFormed neg = true)
    (hw : encode i = [w, v]) : decode neg w (some v) = .ok i := by
  have hd := decodeWords_encode [] h
  rwa [hw] at hd

/-- Under `negate_dst` there is no BPF_NEG of a register (R105). -/
theorem decode_negX_negateDst {w : Word} (second : Option Word) (h : w.toNat % 256 = 0x8c ∨ w.toNat % 256 = 0x8f) :
    decode .negateDst w second = .error .illegalOpcode := by
  rw [← Fields.toNat_opcode_ofWord] at h
  unfold decode decodeFields
  rcases h with ho | ho <;> rw [ho] <;> rfl

/-- Format ALU_K of BPF_NEG with a non-zero imm under `negate_dst` (R82, R105). -/
theorem decodeNegK_nonzero {f : Fields} (c : GReg → BitVec 32 → Instr) (h : f.imm.toNat ≠ 0) :
    decodeNegK .negateDst f c = .error .nonzeroUnusedField := by
  have himm : (f.imm == 0) = false := beq_eq_false_iff_ne.2 fun h0 => h (by rw [h0]; rfl)
  rw [decodeNegK, himm]; rfl

theorem decode_negK_negateDst {w : Word} (second : Option Word) (h : w.toNat % 256 = 0x84 ∨ w.toNat % 256 = 0x87)
    (himm : w.toNat / 2 ^ 32 ≠ 0) : decode .negateDst w second = .error .nonzeroUnusedField := by
  rw [← Fields.toNat_opcode_ofWord] at h
  rw [← Fields.toNat_imm_ofWord] at himm
  unfold decode decodeFields
  rcases h with ho | ho <;> rw [ho] <;> exact decodeNegK_nonzero _ himm

end Sys2Proof

namespace Sys2Proof.Machine

/-! ### Operands and results as numbers -/

@[simp] theorem toNat_low32 (v : Word) : (low32 v).toNat = v.toNat % 2 ^ 32 := BitVec.toNat_setWidth ..

theorem zext64_eq_ofNat (v : BitVec 32) : zext64 v = BitVec.ofNat 64 v.toNat := (BitVec.ofNat_toNat 64 v).symm

theorem immOperand_eq_ofInt (imm : BitVec 32) : immOperand imm = BitVec.ofInt 64 imm.toInt := rfl

/-! ### Arithmetic on two operands -/

/-- At every width N the operation has the number `F N D S` as its result for the operands D and S (R101, R102). -/
def Computes (op : ∀ n, BitVec n → BitVec n → BitVec n) (F : Nat → Nat → Nat → Nat) : Prop :=
  ∀ n (d v : BitVec n), (op n d v).toNat = F n d.toNat v.toNat

/-- The four instructions are the forms of one operation (R100). -/
structure AluForms (k32 : GReg → BitVec 32 → Instr) (x32 : GReg → Reg → Instr) (k64 : GReg → BitVec 32 → Instr)
    (x64 : GReg → Reg → Instr) (op : ∀ n, BitVec n → BitVec n → BitVec n) : Prop where
  imm32 : (shape <| k32 · ·) = .alu32K (op 32)
  reg32 : (shape <| x32 · ·) = .alu32X (op 32)
  imm64 : (shape <| k64 · ·) = .alu64K (op 64)
  reg64 : (shape <| x64 · ·) = .alu64X (op 64)

/-- The forms of an operation write what it computes, and nothing else. -/
theorem AluForms.arithForms {k32 : GReg → BitVec 32 → Instr} {x32 : GReg → Reg → Instr} {k64 : GReg → BitVec 32 → Instr}
    {x64 : GReg → Reg → Instr} {op : ∀ n, BitVec n → BitVec n → BitVec n} {F : Nat → Nat → Nat → Nat}
    (h : AluForms k32 x32 k64 x64 op) (hop : Computes op F) : ArithForms k32 x32 k64 x64 F := by
  refine ⟨fun s dst imm d hd => ?_, fun s dst src d v hd hv => ?_, fun s dst imm d hd => ?_,
    fun s dst src d v hd hv => ?_⟩
  · rw [exec_eq_run, congrFun₂ h.imm32, ← toNat_low32, ← hop, ← zext64_eq_ofNat]
    exact alu32K_ok _ dst imm (read_of_holds hd)
  · rw [exec_eq_run, congrFun₂ h.reg32, ← toNat_low32, ← toNat_low32, ← hop, ← zext64_eq_ofNat]
    exact alu32X_ok _ dst src (read_of_holds hd) (read_of_holds hv)
  · rw [exec_eq_run, congrFun₂ h.imm64, ← hop, BitVec.ofNat_toNat, BitVec.setWidth_eq]
    exact alu64K_ok _ dst imm (read_of_holds hd)
  · rw [exec_eq_run, congrFun₂ h.reg64, ← hop, BitVec.ofNat_toNat, BitVec.setWidth_eq]
    exact alu64X_ok _ dst src (read_of_holds hd) (read_of_holds hv)

/-- BPF_SUB: the difference modulo 2^N (R107). -/
theorem computes_sub : Computes (fun _ => (· - ·)) fun n d s => (d + 2 ^ n - s) % 2 ^ n := by
  intro n d v
  have hv := v.isLt
  rw [BitVec.toNat_sub, show 2 ^ n - v.toNat + d.toNat = d.toNat + 2 ^ n - v.toNat by omega]

/-- BPF_DIV: a zero divisor gives 0 (R104). -/
theorem computes_div : Computes divOp fun _ d s => if s = 0 then 0 else d / s := by
  intro n d v
  by_cases hv : v = 0
  · simp [divOp, hv]
  · have hv' : v.toNat ≠ 0 := by simpa [← BitVec.toNat_inj] using hv
    have hlt : d.toNat / v.toNat < 2 ^ n := (Nat.div_le_self ..).trans_lt d.isLt
    simp only [divOp, if_neg hv, if_neg hv', BitVec.toNat_ofNat, Nat.mod_eq_of_lt hlt]

/-- BPF_MOD: a zero divisor gives the destination operand (R104). -/
theorem computes_mod : Computes modOp fun _ d s => if s = 0 then d else d % s := by
  intro n d v
  by_cases hv : v = 0
  · simp [modOp, hv]
  · have hv' : v.toNat ≠ 0 := by simpa [← BitVec.toNat_inj] using hv
    have hlt : d.toNat % v.toNat < 2 ^ n := (Nat.mod_le ..).trans_lt d.isLt
    simp only [modOp, if_neg hv, if_neg hv', BitVec.toNat_ofNat, Nat.mod_eq_of_lt hlt]

/-! ### Shifts -/

/-- At every width N the shift of D by k has the number `F N D k` as its result (R103). -/
def ComputesShift (op : ∀ n, BitVec n → Nat → BitVec n) (F : Nat → Nat → Nat → Nat) : Prop :=
  ∀ n (d : BitVec n) (k : Nat), (op n d k).toNat = F n d.toNat k

/-- The four instructions are the forms of one shift (R100, R103). -/
structure ShiftShapes (k32 : GReg → BitVec 32 → Instr) (x32 : GReg → Reg → Instr) (k64 : GReg → BitVec 32 → Instr)
    (x64 : GReg → Reg → Instr) (op : ∀ n, BitVec n → Nat → BitVec n) : Prop where
  imm32 : (shape <| k32 · ·) = .shift32K (op 32)
  reg32 : (shape <| x32 · ·) = .shift32X (op 32)
  imm64 : (shape <| k64 · ·) = .shift64K (op 64)
  reg64 : (shape <| x64 · ·) = .shift64X (op 64)

/-- A shift by less than the width. -/
theorem shiftOp_of_lt {n k : Nat} (op : BitVec n → Nat → BitVec n) (pol : ShiftPolicy) (d : BitVec n) (h : k < n) :
    shiftOp n op pol d k = some (op d k) := if_pos h

/-- A shift by the width or more under `mask`. -/
theorem shiftOp_mask {n k : Nat} (op : BitVec n → Nat → BitVec n) (d : BitVec n) (h : n ≤ k) :
    shiftOp n op .mask d k = some (op d (k % n)) := if_neg h.not_gt

/-- A shift by the width or more under `unspecified`. -/
theorem shiftOp_unspecified {n k : Nat} (op : BitVec n → Nat → BitVec n) (d : BitVec n) (h : n ≤ k) :
    shiftOp n op .unspecified d k = none := if_neg h.not_gt

/-- The state after a shift: the result, or the next draw, zero-extended into dst (R103). -/
def State.shifted {n : Nat} (s : State) (dst : GReg) (o : Option (BitVec n)) : State :=
  ((s.afterResult o).put dst ((s.resultOr o).setWidth 64)).advance

/-- An instruction that ends in `State.shifted` has the outcome of R103. -/
theorem shiftOutcome_of_exec {n k : Nat} {op : ∀ n, BitVec n → Nat → BitVec n} {F : Nat → Nat → Nat → Nat} {i : Instr}
    {s : State} {dst : GReg} {d : BitVec n} (hop : ComputesShift op F)
    (h : exec i s = .next (s.shifted dst (shiftOp n (op n) s.par.shiftPolicy d k))) :
    ShiftOutcome n F i s dst d.toNat k := by
  refine ⟨fun hk => ?_, fun hk hp => ?_, fun hk hp => ?_⟩
  · rw [h, shiftOp_of_lt _ _ _ hk, ← hop, BitVec.ofNat_toNat]; rfl
  · rw [h, hp, shiftOp_mask _ _ hk, ← hop, BitVec.ofNat_toNat]; rfl
  · rw [h, hp, shiftOp_unspecified _ _ hk]; rfl

/-- The zero-extension of a 64-bit result is the result. -/
theorem State.shifted_64 (s : State) (dst : GReg) (o : Option Word) :
    s.shifted dst o = ((s.afterResult o).put dst (s.resultOr o)).advance := by
  rw [State.shifted, BitVec.setWidth_eq]

/-- The forms of a shift have the outcome of R103 for what it computes. -/
theorem ShiftShapes.shiftForms {k32 : GReg → BitVec 32 → Instr} {x32 : GReg → Reg → Instr}
    {k64 : GReg → BitVec 32 → Instr} {x64 : GReg → Reg → Instr} {op : ∀ n, BitVec n → Nat → BitVec n}
    {F : Nat → Nat → Nat → Nat} (h : ShiftShapes k32 x32 k64 x64 op) (hop : ComputesShift op F) :
    ShiftForms k32 x32 k64 x64 F := by
  refine ⟨fun s dst imm d hd => ⟨?_, ?_⟩, fun s dst src d v hd hv => ⟨?_, ?_⟩⟩
  · rw [← toNat_low32]
    refine shiftOutcome_of_exec hop ?_
    rw [exec_eq_run, congrFun₂ h.imm32]
    exact shift32K_ok _ dst imm (read_of_holds hd)
  · refine shiftOutcome_of_exec hop ?_
    rw [exec_eq_run, congrFun₂ h.imm64, State.shifted_64]
    exact shift64K_ok _ dst imm (read_of_holds hd)
  · rw [← toNat_low32, ← toNat_low32]
    refine shiftOutcome_of_exec hop ?_
    rw [exec_eq_run, congrFun₂ h.reg32]
    exact shift32X_ok _ dst src (read_of_holds hd) (read_of_holds hv)
  · refine shiftOutcome_of_exec hop ?_
    rw [exec_eq_run, congrFun₂ h.reg64, State.shifted_64]
    exact shift64X_ok _ dst src (read_of_holds hd) (read_of_holds hv)

/-- BPF_LSH. -/
theorem computes_lsh : ComputesShift (fun _ => (· <<< ·)) fun n d k => d * 2 ^ k % 2 ^ n := by
  intro n d k
  rw [BitVec.toNat_shiftLeft, Nat.shiftLeft_eq]

/-- BPF_RSH. -/
theorem computes_rsh : ComputesShift (fun _ => (· >>> ·)) fun _ d k => d / 2 ^ k := by
  intro n d k
  rw [BitVec.toNat_ushiftRight, Nat.shiftRight_eq_div_pow]

/-- BPF_ARSH: the signed operand divided, rounding down, in two's complement. -/
theorem computes_arsh : ComputesShift (fun _ => BitVec.sshiftRight)
    fun n d k => ((BitVec.ofNat n d).toInt / 2 ^ k % 2 ^ n).toNat := by
  intro n d k
  have hd : BitVec.ofNat n d.toNat = d := by rw [BitVec.ofNat_toNat, BitVec.setWidth_eq]
  calc (d.sshiftRight k).toNat = (BitVec.ofInt n (d.sshiftRight k).toInt).toNat := by rw [BitVec.ofInt_toInt]
    _ = (d.toInt / 2 ^ k % 2 ^ n).toNat := by
      rw [BitVec.toNat_ofInt, BitVec.toInt_sshiftRight, Int.shiftRight_eq_div_pow]; push_cast; rfl
    _ = ((BitVec.ofNat n d.toNat).toInt / 2 ^ k % 2 ^ n).toNat := by rw [hd]

/-! ### BPF_NEG -/

theorem negK_literal (complement : BitVec 32 → Word) (negate : Word → Word) (dst : GReg) (imm : BitVec 32) {s : State}
    (h : s.par.negReading = .literal) : negK complement negate dst imm s = .next (s.wrote dst (complement imm)) := by
  rw [negK, h]; rfl

theorem negK_negateDst (complement : BitVec 32 → Word) (negate : Word → Word) {dst : GReg} {s : State} {d : Word}
    (h : s.par.negReading = .negateDst) (hd : Holds s (.gpr dst) d) :
    negK complement negate dst 0 s = .next (s.wrote dst (negate d)) := by
  rw [negK, h]
  exact writeX_ok negate dst _ (read_of_holds hd)

theorem negX_literal (complement : Word → Word) (dst : GReg) {src : Reg} {s : State} {v : Word}
    (h : s.par.negReading = .literal) (hv : Holds s src v) :
    negX complement dst src s = .next (s.wrote dst (complement v)) := by
  rw [negX, h]
  exact writeX_ok complement dst src (read_of_holds hv)

/-- The complement as a number. -/
theorem not_eq_ofNat {n : Nat} (x : BitVec n) : ~~~x = BitVec.ofNat n (2 ^ n - 1 - x.toNat) := by
  rw [← BitVec.toNat_not, BitVec.ofNat_toNat, BitVec.setWidth_eq]

/-- The complement of a sign-extended number is the one below its negation. -/
theorem not_ofInt {n : Nat} (i : Int) : ~~~BitVec.ofInt n i = BitVec.ofInt n (-1 - i) := by
  rw [BitVec.not_eq_neg_add, show -1 - i = -(i + 1) by omega, BitVec.ofInt_neg, BitVec.ofInt_add, BitVec.neg_add]; rfl

/-- The negation as a number (R105). -/
theorem neg_eq_ofNat {n : Nat} (x : BitVec n) : -x = BitVec.ofNat n (2 ^ n - x.toNat) := rfl

/-! ### Instructions that touch neither memory nor the outcome -/

/-- The kinds of instructions that work on registers and pc alone. -/
def Kind.onRegisters : Kind → Prop
  | .arith | .jump _ | .conditional _ | .wide => True
  | _ => False

/-- A next state whose outcome mark is that of a running state. -/
theorem SafeOutcome.of_next {s t : State} {r : Result} (hr : Running s) (h : r = .next t) (ho : t.out = s.out) :
    SafeOutcome r := by
  refine ⟨t, h, fun f hf => ?_⟩
  unfold Running at hr
  rw [ho, hr] at hf
  cases hf

theorem read_one {s : State} {a : Reg} (h : ∀ r ∈ [a], ∃ v, Holds s r v) : ∃ v, s.read a = .ok v := by
  simpa [holds_read] using h

theorem read_two {s : State} {a b : Reg} (h : ∀ r ∈ [a, b], ∃ v, Holds s r v) :
    (∃ v, s.read a = .ok v) ∧ ∃ v, s.read b = .ok v := by
  simpa [holds_read] using h

/-- A shared operation on registers alone that the run accepts ends in no fault where its reads succeed. -/
theorem Shape.run_safe (sh : Shape) {s : State} (hr : Running s) (ha : sh.accepted s.par.negReading = true)
    (h : ∀ r ∈ (sh.profile s.par.negReading).reads, ∃ v, Holds s r v)
    (hk : (sh.profile s.par.negReading).kind.onRegisters) : SafeOutcome (sh.run s) := by
  cases sh with
  | alu32K f dst imm => obtain ⟨d, hd⟩ := read_one h; exact .of_next hr (alu32K_ok f dst imm hd) rfl
  | alu64K f dst imm => obtain ⟨d, hd⟩ := read_one h; exact .of_next hr (alu64K_ok f dst imm hd) rfl
  | alu32X f dst src =>
    obtain ⟨⟨d, hd⟩, v, hv⟩ := read_two h
    exact .of_next hr (alu32X_ok f dst src hd hv) rfl
  | alu64X f dst src =>
    obtain ⟨⟨d, hd⟩, v, hv⟩ := read_two h
    exact .of_next hr (alu64X_ok f dst src hd hv) rfl
  | shift32K op dst imm => obtain ⟨d, hd⟩ := read_one h; exact .of_next hr (shift32K_ok op dst imm hd) (by simp)
  | shift64K op dst imm => obtain ⟨d, hd⟩ := read_one h; exact .of_next hr (shift64K_ok op dst imm hd) (by simp)
  | shift32X op dst src =>
    obtain ⟨⟨d, hd⟩, v, hv⟩ := read_two h
    exact .of_next hr (shift32X_ok op dst src hd hv) (by simp)
  | shift64X op dst src =>
    obtain ⟨⟨d, hd⟩, v, hv⟩ := read_two h
    exact .of_next hr (shift64X_ok op dst src hd hv) (by simp)
  | writeK f dst imm => exact .of_next hr (writeK_eq f dst imm s) rfl
  | writeX f dst src => obtain ⟨v, hv⟩ := read_one h; exact .of_next hr (writeX_ok f dst src hv) rfl
  | negK complement negate dst imm =>
    cases hn : s.par.negReading with
    | literal => exact .of_next hr (negK_literal complement negate dst imm hn) rfl
    | negateDst =>
      obtain rfl : imm = 0 := by simpa [Shape.accepted, hn] using ha
      obtain ⟨d, hd⟩ : ∃ d, Holds s (.gpr dst) d := by simpa [Shape.profile, hn] using h
      exact .of_next hr (negK_negateDst complement negate hn hd) rfl
  | negX complement dst src =>
    obtain ⟨v, hv⟩ := read_one h
    exact .of_next hr (negX_literal complement dst (of_decide_eq_true ha) (holds_read.2 hv)) rfl
  | endSwap target n dst => obtain ⟨d, hd⟩ := read_one h; exact .of_next hr (writeX_ok _ dst _ hd) rfl
  | ja off => exact .of_next hr (t := s.jump off) rfl rfl
  | jump64K c dst imm off => obtain ⟨d, hd⟩ := read_one h; exact .of_next hr (jump64K_ok c dst imm off hd) (by simp)
  | jump32K c dst imm off => obtain ⟨d, hd⟩ := read_one h; exact .of_next hr (jump32K_ok c dst imm off hd) (by simp)
  | jump64X c dst src off =>
    obtain ⟨⟨d, hd⟩, v, hv⟩ := read_two h
    exact .of_next hr (jump64X_ok c dst src off hd hv) (by simp)
  | jump32X c dst src off =>
    obtain ⟨⟨d, hd⟩, v, hv⟩ := read_two h
    exact .of_next hr (jump32X_ok c dst src off hd hv) (by simp)
  | lddw dst imm64 => exact .of_next hr (t := (s.put dst imm64).advance.advance) rfl rfl
  | call | exit | storeReg | storeImm | load | atomicPlain | atomicFetch | atomicCmpxchg | legacy => exact hk.elim

/-! ### The statements settled -/

/-- Settles O29: the instruction is one of the shared operations on registers, and its reads succeed. -/
theorem arithmeticNeverFaults : Obligations.ArithmeticNeverFaults := by
  intro i s hr hwf h hk
  have hk : (profile s.par.negReading i).kind.onRegisters := hk
  rw [wellFormed_eq] at hwf
  rw [profile_eq] at h hk
  rw [exec_eq_run]
  exact (shape i).run_safe hr hwf h hk

/-- Settles O30: the sum of bit vectors is the sum modulo 2^N. -/
theorem addResult : Obligations.AddResult :=
  AluForms.arithForms (op := fun _ => (· + ·)) ⟨rfl, rfl, rfl, rfl⟩ fun _ => BitVec.toNat_add

/-- Settles O31: the difference of bit vectors is the difference modulo 2^N. -/
theorem subResult : Obligations.SubResult :=
  AluForms.arithForms ⟨rfl, rfl, rfl, rfl⟩ computes_sub

/-- Settles O32: the product of bit vectors is the product modulo 2^N. -/
theorem mulResult : Obligations.MulResult :=
  AluForms.arithForms (op := fun _ => (· * ·)) ⟨rfl, rfl, rfl, rfl⟩ fun _ => BitVec.toNat_mul

/-- Settles O33: a zero divisor is a case of what the operation computes. -/
theorem divModResult : Obligations.DivModResult :=
  ⟨AluForms.arithForms ⟨rfl, rfl, rfl, rfl⟩ computes_div,
    AluForms.arithForms ⟨rfl, rfl, rfl, rfl⟩ computes_mod⟩

/-- Settles O34: the operations on bit vectors are those on their numbers. -/
theorem bitwiseResult : Obligations.BitwiseResult :=
  ⟨AluForms.arithForms (op := fun _ => (· ||| ·)) ⟨rfl, rfl, rfl, rfl⟩ fun _ => BitVec.toNat_or,
    AluForms.arithForms (op := fun _ => (· &&& ·)) ⟨rfl, rfl, rfl, rfl⟩ fun _ => BitVec.toNat_and,
    AluForms.arithForms (op := fun _ => (· ^^^ ·)) ⟨rfl, rfl, rfl, rfl⟩ fun _ => BitVec.toNat_xor⟩

/-- Settles O35: `writeK` reads no register, `writeX` the source alone. -/
theorem movResult : Obligations.MovResult := by
  refine ⟨fun s dst imm => ⟨?_, ?_⟩, fun s dst src v hv => ⟨?_, ?_⟩⟩
  · rw [← zext64_eq_ofNat]; exact writeK_eq zext64 dst imm s
  · rw [← immOperand_eq_ofInt]; exact writeK_eq immOperand dst imm s
  · rw [← toNat_low32, ← zext64_eq_ofNat]; exact writeX_ok _ dst src (read_of_holds hv)
  · exact writeX_ok _ dst src (read_of_holds hv)

/-- Settles O36: each reading's rule for the state, and the checks of the decoder under `negate_dst`. -/
theorem negResult : Obligations.NegResult := by
  refine ⟨fun s dst imm hn => ⟨?_, ?_⟩, fun s dst src v hn hv => ⟨?_, ?_⟩, fun s dst d hn hd => ⟨?_, ?_⟩,
    fun w second => ⟨decode_negX_negateDst second, decode_negK_negateDst second⟩⟩
  · rw [← BitVec.toNat_not, ← zext64_eq_ofNat]; exact negK_literal _ _ dst imm hn
  · rw [← not_ofInt, ← immOperand_eq_ofInt]; exact negK_literal _ _ dst imm hn
  · rw [← toNat_low32, ← BitVec.toNat_not, ← zext64_eq_ofNat]; exact negX_literal _ dst hn hv
  · rw [← not_eq_ofNat]; exact negX_literal _ dst hn hv
  · rw [← toNat_low32, ← BitVec.toNat_neg, ← zext64_eq_ofNat]; exact negK_negateDst _ _ hn hd
  · rw [← neg_eq_ofNat]; exact negK_negateDst _ _ hn hd

/-- Settles O37: the policy decides what a shift by the width or more yields, the forms only give the operands. -/
theorem shiftResult : Obligations.ShiftResult :=
  ⟨ShiftShapes.shiftForms ⟨rfl, rfl, rfl, rfl⟩ computes_lsh,
    ShiftShapes.shiftForms ⟨rfl, rfl, rfl, rfl⟩ computes_rsh,
    ShiftShapes.shiftForms ⟨rfl, rfl, rfl, rfl⟩ computes_arsh⟩

/-- Settles O4: each word is the encoding of its instruction, and every encoding decodes. -/
theorem specWordsDecode : Obligations.SpecWordsDecode :=
  ⟨decode_of_encode rfl rfl, decode_of_encode rfl rfl, decode_of_encode rfl rfl, decode_of_encode rfl rfl,
    decode_of_encode rfl rfl, decode_of_encode rfl rfl, decode_of_encode rfl rfl, decode_of_encode rfl rfl,
    decode_of_encode rfl rfl, decode_of_encode_wide rfl rfl⟩

end Sys2Proof.Machine
end

section
/-! The statement about the byte swaps (41_byteswap.md): the bytes the model reverses are those the claim lists, and one
rule serves the six instructions. The settled statement stands at the end. -/

namespace Sys2Proof.Machine

/-! ### Bytes in the other order -/

/-- The bytes of the machine are the base-256 digits of the claims. -/
theorem map_toNat_leBytes : ∀ n v : Nat, (leBytes n v).map BitVec.toNat = bytesOf n v
  | 0, _ => rfl
  | n + 1, v => by rw [leBytes, bytesOf, List.map_cons, map_toNat_leBytes n, BitVec.toNat_ofNat]

/-- One more digit at the end of a number is its lowest digit. -/
theorem bigValue_append_singleton (ds : List Nat) (b : Nat) : bigValue (ds ++ [b]) = 256 * bigValue ds + b := by
  rw [bigValue, List.foldl_append]; rfl

/-- Bytes read from the least significant one are their reverse read from the most significant one. -/
theorem leNat_eq_bigValue : ∀ bs : List Byte, leNat bs = bigValue (bs.reverse.map BitVec.toNat)
  | [] => rfl
  | b :: bs => by
    rw [leNat, leNat_eq_bigValue bs, List.reverse_cons, List.map_append, List.map_singleton,
      bigValue_append_singleton, Nat.add_comm]

/-- The swap of the machine is the `bswap` of the claims (R11). -/
theorem swapBytes_eq_bswap (n : Nat) (v : Word) : swapBytes n v = BitVec.ofNat 64 (bswap n v.toNat) := by
  rw [swapBytes, leNat_eq_bigValue, List.reverse_reverse, map_toNat_leBytes]; rfl

/-! ### Host order and target order -/

/-- A host of the target order only truncates (R161, R162). -/
theorem endOp_of_eq {host target : Endian} (n : Nat) (v : Word) (h : host = target) :
    endOp host target n v = BitVec.ofNat 64 (v.toNat % 256 ^ n) := if_pos h.symm

/-- A host of the other order reverses the bytes (R161). -/
theorem endOp_of_ne {host target : Endian} (n : Nat) (v : Word) (h : host ≠ target) :
    endOp host target n v = BitVec.ofNat 64 (bswap n v.toNat) :=
  (if_neg h.symm).trans (swapBytes_eq_bswap n v)

/-- A byte swap of a register that holds a value writes the converted value, and nothing else (R161). -/
theorem endSwap_ok (target : Endian) (n : Nat) {dst : GReg} {s : State} {d : Word} (hd : Holds s (.gpr dst) d) :
    endSwap target n dst s = .next (s.wrote dst (endOp s.par.hostEndian target n d)) :=
  writeX_ok _ dst _ (read_of_holds hd)

/-- An instruction of the shape of a byte swap is one on both host orders. -/
theorem swapForm_of_shape {c : GReg → Instr} {target : Endian} {n : Nat}
    (h : ∀ dst, shape (c dst) = .endSwap target n dst) : SwapForm c target n := by
  intro s dst d hd
  have hexec : exec (c dst) s = .next (s.wrote dst (endOp s.par.hostEndian target n d)) := by
    rw [exec_eq_run, h]; exact endSwap_ok target n hd
  refine ⟨fun hsame => ?_, fun hother => ?_⟩
  · rw [hexec, endOp_of_eq n d hsame]
  · rw [hexec, endOp_of_ne n d hother]

/-! ### The statement settled -/

/-- Settles O38: the six instructions have the shape of a byte swap, each with its order and its number of bytes. -/
theorem byteSwapResult : Obligations.ByteSwapResult :=
  ⟨swapForm_of_shape fun _ => rfl, swapForm_of_shape fun _ => rfl, swapForm_of_shape fun _ => rfl,
    swapForm_of_shape fun _ => rfl, swapForm_of_shape fun _ => rfl, swapForm_of_shape fun _ => rfl⟩

end Sys2Proof.Machine
end

section
/-! The statements about jumps, call and exit (42_jump.md): what each comparison decides on numbers, the four forms of a
conditional jump proved once for every comparison, and the faults of a call. The settled statements stand at the end. -/

namespace Sys2Proof.Machine

/-! ### Comparisons -/

/-- At every width the comparison holds exactly where `P` does (R171). -/
def Decides (c : ∀ n, BitVec n → BitVec n → Bool) (P : ∀ n, BitVec n → BitVec n → Prop) : Prop :=
  ∀ n (d v : BitVec n), c n d v = true ↔ P n d v

theorem decides_eq : Decides @condEq fun _ d v => d.toNat = v.toNat :=
  fun _ _ _ => decide_eq_true_iff.trans BitVec.toNat_inj.symm

theorem decides_ne : Decides @condNe fun _ d v => d.toNat ≠ v.toNat :=
  fun _ _ _ => decide_eq_true_iff.trans BitVec.toNat_ne_iff_ne.symm

/-- Two operands have a common one bit where their conjunction has one (R171). -/
theorem decides_set : Decides @condSet fun _ d v => ∃ b, d.getLsbD b = true ∧ v.getLsbD b = true := by
  intro n d v
  have hzero : d &&& v = 0 ↔ ∀ b, ¬(d.getLsbD b = true ∧ v.getLsbD b = true) := by
    rw [BitVec.eq_of_getLsbD_eq_iff]
    refine ⟨fun h b ⟨hd, hv⟩ => ?_, fun h b _ => ?_⟩
    · have hb := h b (BitVec.lt_of_getLsbD hd)
      simp [hd, hv] at hb
    · simpa using h b
  rw [condSet, decide_eq_true_iff, Ne, hzero, not_forall_not]

/-! ### The four forms of a conditional jump -/

/-- The four instructions are the forms of one conditional jump (R170). -/
structure JumpShapes (k64 : Reg → BitVec 32 → BitVec 16 → Instr) (x64 : Reg → Reg → BitVec 16 → Instr)
    (k32 : Reg → BitVec 32 → BitVec 16 → Instr) (x32 : Reg → Reg → BitVec 16 → Instr)
    (c : ∀ n, BitVec n → BitVec n → Bool) : Prop where
  imm64 : (shape <| k64 · · ·) = .jump64K (c 64)
  reg64 : (shape <| x64 · · ·) = .jump64X (c 64)
  imm32 : (shape <| k32 · · ·) = .jump32K (c 32)
  reg32 : (shape <| x32 · · ·) = .jump32X (c 32)

/-- An instruction that ends in `State.branch` goes to the target exactly where its comparison holds (R173). -/
theorem branches_of_exec {i : Instr} {s : State} {off : BitVec 16} {taken : Bool} {P : Prop}
    (h : exec i s = .next (s.branch taken off)) (hP : taken = true ↔ P) : Branches i s off P := by
  refine ⟨fun hp => ?_, fun hp => ?_⟩
  · rw [h, hP.2 hp]; rfl
  · rw [h, Bool.eq_false_iff.2 (hP.not.2 hp)]; rfl

/-- The forms of a conditional jump go to the target where what the comparison decides holds of their operands. -/
theorem JumpShapes.jumpForms {k64 : Reg → BitVec 32 → BitVec 16 → Instr} {x64 : Reg → Reg → BitVec 16 → Instr}
    {k32 : Reg → BitVec 32 → BitVec 16 → Instr} {x32 : Reg → Reg → BitVec 16 → Instr}
    {c : ∀ n, BitVec n → BitVec n → Bool} {P : ∀ n, BitVec n → BitVec n → Prop}
    (h : JumpShapes k64 x64 k32 x32 c) (hc : Decides c P) : JumpForms k64 x64 k32 x32 P := by
  refine ⟨fun s dst imm off d hd => ⟨branches_of_exec ?_ (hc 64 ..), branches_of_exec ?_ (hc 32 ..)⟩,
    fun s dst src off d v hd hv => ⟨branches_of_exec ?_ (hc 64 ..), branches_of_exec ?_ (hc 32 ..)⟩⟩
  · rw [exec_eq_run, congrFun₃ h.imm64]
    exact jump64K_ok _ dst imm off (read_of_holds hd)
  · rw [exec_eq_run, congrFun₃ h.imm32]
    exact jump32K_ok _ dst imm off (read_of_holds hd)
  · rw [exec_eq_run, congrFun₃ h.reg64]
    exact jump64X_ok _ dst src off (read_of_holds hd) (read_of_holds hv)
  · rw [exec_eq_run, congrFun₃ h.reg32]
    exact jump32X_ok _ dst src off (read_of_holds hd) (read_of_holds hv)

/-! ### The faults of a call -/

/-- A number no entry has is not found (R224). -/
theorem findHelper_eq_none {par : Params} {imm : BitVec 32} (h : ∀ f ∈ par.helpers, f.number ≠ imm) :
    findHelper par imm = none :=
  List.find?_eq_none.2 fun f hf => mt of_decide_eq_true (h f hf)

/-- The registers before hold values and the next one holds none: reading them in order is its fault (R309). -/
theorem readAll_of_holdsNone {s : State} {before after : List GReg} {g : GReg}
    (hb : ∀ r ∈ before, ∃ v, Holds s (.gpr r) v) (hg : HoldsNone s g) :
    s.readAll (before ++ g :: after) = .error (.uninitRegister g) := by
  induction before with
  | nil => rw [List.nil_append, State.readAll, read_of_holdsNone hg]; rfl
  | cons r rs ih =>
    obtain ⟨⟨v, hv⟩, hrs⟩ := List.forall_mem_cons.1 hb
    rw [List.cons_append, State.readAll, read_of_holds hv, ih hrs]; rfl

/-! ### The statements settled -/

/-- Settles O41: each four are the forms of one comparison. -/
theorem equalityJumps : Obligations.EqualityJumps :=
  ⟨JumpShapes.jumpForms ⟨rfl, rfl, rfl, rfl⟩ decides_eq, JumpShapes.jumpForms ⟨rfl, rfl, rfl, rfl⟩ decides_ne,
    JumpShapes.jumpForms ⟨rfl, rfl, rfl, rfl⟩ decides_set⟩

/-- Settles O42: the comparisons of the model are those of the unsigned values. -/
theorem unsignedJumps : Obligations.UnsignedJumps :=
  ⟨JumpShapes.jumpForms (c := @condGt) ⟨rfl, rfl, rfl, rfl⟩ fun _ _ _ => decide_eq_true_iff,
    JumpShapes.jumpForms (c := @condGe) ⟨rfl, rfl, rfl, rfl⟩ fun _ _ _ => decide_eq_true_iff,
    JumpShapes.jumpForms (c := @condLt) ⟨rfl, rfl, rfl, rfl⟩ fun _ _ _ => decide_eq_true_iff,
    JumpShapes.jumpForms (c := @condLe) ⟨rfl, rfl, rfl, rfl⟩ fun _ _ _ => decide_eq_true_iff⟩

/-- Settles O43: the comparisons of the model are those of the two's complement values. -/
theorem signedJumps : Obligations.SignedJumps :=
  ⟨JumpShapes.jumpForms (c := @condSgt) ⟨rfl, rfl, rfl, rfl⟩ fun _ _ _ => decide_eq_true_iff,
    JumpShapes.jumpForms (c := @condSge) ⟨rfl, rfl, rfl, rfl⟩ fun _ _ _ => decide_eq_true_iff,
    JumpShapes.jumpForms (c := @condSlt) ⟨rfl, rfl, rfl, rfl⟩ fun _ _ _ => decide_eq_true_iff,
    JumpShapes.jumpForms (c := @condSle) ⟨rfl, rfl, rfl, rfl⟩ fun _ _ _ => decide_eq_true_iff⟩

/-- Settles O45: the number is looked up, the arguments are read in order, then the function runs. -/
theorem callFaults : Obligations.CallFaults := by
  refine ⟨fun s imm hnone => ?_, fun s imm h before g after hf htake hb hg => ?_, fun s imm h args hf ha hr => ?_⟩
  · exact callFunction_error (.inl ⟨findHelper_eq_none hnone, rfl⟩)
  · exact callFunction_error (.inr ⟨h, hf, .inl (htake ▸ readAll_of_holdsNone hb hg)⟩)
  · exact callFunction_error (.inr ⟨h, hf, .inr ⟨args, readAll_of_holds ha, hr, rfl⟩⟩)

/-- Settles O46: `exit` reads R0, which holds the exit value or none. -/
theorem exitResult : Obligations.ExitResult :=
  ⟨fun _ _ hv => exitProgram_ok (read_of_holds hv), fun _ hn => exitProgram_error (read_of_holdsNone hn)⟩

end Sys2Proof.Machine
end

section
/-! The statements about loads and stores (43_load_store.md): a load's draws and a shared access's event as updates of the
state, and what every store leaves, proved once for both sources of the value. The settled statements stand at the end. -/

namespace Sys2Proof.Machine

/-! ### What an access to a region changes -/

/-- A read of a region takes the draws of the claims (R44). -/
theorem afterRead_eq_drawsAfter (s : State) (r : Region) (n : Nat) :
    s.afterRead r n = { s with draws := s.drawsAfter r n } := by
  unfold State.afterRead State.drawsAfter; split <;> rfl

/-- Recording an access gives the history of the claims (R58 d). -/
theorem record_eq_historyWith (s : State) (r : Region) (e : Event) :
    s.record r e = { s with history := s.historyWith r e } := by
  unfold State.record State.historyWith; split <;> rfl

/-! ### Stores -/

/-- An instruction that stores, records the access and goes on leaves the bytes of the value at the address, and changes
nothing else but the history and `pc` (R45, R232). -/
theorem storedAt_of_exec {i : Instr} {s : State} {r : Region} {a : Word} {n : Nat} {v : Word}
    (h : exec i s = .next ((s.store a n v).record r (.write .thisRun a n (lowBytes n v))).advance) :
    ∃ t, exec i s = .next t ∧ StoredAt s t a n v.toNat ∧
      t = { s with pc := s.pc + 1, mem := t.mem, history := s.historyWith r (.write .thisRun a n
        (BitVec.ofNat 64 (v.toNat % 256 ^ n))) } := by
  rw [record_eq_historyWith, lowBytes_eq] at h
  exact ⟨_, h, (storedAt_store s a n v).of_mem rfl, rfl⟩

/-! ### The statements settled -/

/-- Settles O48: a granted load reads the value of the claims, and the read and its event touch draws and history alone. -/
theorem loadResult : Obligations.LoadResult := by
  intro s sz dst src off base r hb ha
  rw [exec_loadOf, loadReg_ok sz dst (read_of_holds hb) (checkAccess_of_access sz.bytes_pos ha), valueAt_eq,
    afterRead_eq_drawsAfter, record_eq_historyWith]
  rfl

/-- Settles O49: the two kinds of store differ in the value alone. -/
theorem storeResult : Obligations.StoreResult := by
  refine ⟨fun s sz dst src off base v r hb hv ha => storedAt_of_exec ?_,
    fun s sz dst off imm base r hb ha => storedAt_of_exec ?_⟩
  · rw [exec_storeRegOf]
    exact storeReg_ok sz (read_of_holds hb) (read_of_holds hv) (checkAccess_of_access sz.bytes_pos ha)
  · rw [exec_storeImmOf]
    exact storeImm_ok sz imm (read_of_holds hb) (checkAccess_of_access sz.bytes_pos ha)

end Sys2Proof.Machine
end

section
/-! The statements about atomic operations (44_atomic.md): the state an atomic operation leaves as the one of the claims, the
operations on words as those on numbers, and the fetching forms proved once. The settled statements stand at the end. -/

namespace Sys2Proof.Machine

/-! ### Words that hold numbers of an access's size -/

theorem AtomicSize.bytes_le_eight (z : AtomicSize) : z.bytes ≤ 8 := by cases z <;> decide

theorem mod_word_mod_bytes {n : Nat} (hn : n ≤ 8) (x : Nat) : x % 2 ^ 64 % 256 ^ n = x % 256 ^ n :=
  Nat.mod_mod_of_dvd x (Nat.pow_dvd_pow 256 hn : 256 ^ n ∣ 256 ^ 8)

/-- Numbers of at most eight bytes are equal where the words that hold them are. -/
theorem ofNat_eq_ofNat_iff {n x y : Nat} (hn : n ≤ 8) (hx : x < 256 ^ n) (hy : y < 256 ^ n) :
    BitVec.ofNat 64 x = BitVec.ofNat 64 y ↔ x = y := by
  have hle : 256 ^ n ≤ 2 ^ 64 := (Nat.pow_le_pow_right (by decide) hn : 256 ^ n ≤ 256 ^ 8)
  rw [← BitVec.toNat_inj, BitVec.toNat_ofNat, BitVec.toNat_ofNat, Nat.mod_eq_of_lt (hx.trans_le hle),
    Nat.mod_eq_of_lt (hy.trans_le hle)]

/-- Storing the word of a number leaves the bytes of the number (R45). -/
theorem storedAt_store_ofNat (s : State) (a : Word) {n : Nat} (hn : n ≤ 8) (x : Nat) :
    StoredAt s (s.store a n (BitVec.ofNat 64 x)) a n x :=
  (storedAt_store s a n _).of_mod (by rw [BitVec.toNat_ofNat, mod_word_mod_bytes hn])

/-! ### The state an atomic operation leaves -/

/-- What `AtomicRMW` changes: the memory, the draws and the history (R52, R58 d). -/
theorem rmwState_eq (s : State) (r : Region) (a : Word) (n : Nat) (new : Option Word) :
    s.rmwState r a n new = { s with
      mem     := (s.storeNew a n new).mem
      draws   := s.drawsAfter r n
      history := s.historyWith r (.atomic .thisRun a n (BitVec.ofNat 64 (s.accessValue r a n)) new) } := by
  rw [State.rmwState, record_eq_historyWith, afterRead_eq_drawsAfter, valueAt_eq]
  cases new <;> rfl

/-- With no result register, the state of the claims (R253). -/
theorem advance_rmwState (s : State) (r : Region) (a : Word) (n : Nat) (new : Option Nat) :
    (s.rmwState r a n (new.map (BitVec.ofNat 64))).advance =
      s.afterAtomic (s.storeNew a n (new.map (BitVec.ofNat 64))) r a n (s.accessValue r a n) new s.regs := by
  rw [rmwState_eq]; rfl

/-- With the old value in a register, the state of the claims (R252, R272). -/
theorem advance_put_rmwState (s : State) (r : Region) (a : Word) (n : Nat) (new : Option Nat) (g : GReg) :
    ((s.rmwState r a n (new.map (BitVec.ofNat 64))).put g (BitVec.ofNat 64 (s.accessValue r a n))).advance =
      s.afterAtomic (s.storeNew a n (new.map (BitVec.ofNat 64))) r a n (s.accessValue r a n) new
        (s.regs.set g (some (BitVec.ofNat 64 (s.accessValue r a n)))) := by
  rw [rmwState_eq]; rfl

/-- An operation that stores the number `x` leaves its bytes in memory. -/
theorem storedAt_afterAtomic (s : State) (r : Region) (a : Word) {n : Nat} (hn : n ≤ 8) (old x : Nat)
    (new : Option Nat) (rf : RegFile) :
    StoredAt s (s.afterAtomic (s.store a n (BitVec.ofNat 64 x)) r a n old new rf) a n x :=
  (storedAt_store_ofNat s a hn x).of_mem rfl

/-- The access of an atomic operation passes its checks. -/
theorem checkAccess_of_atomicAccess {z : AtomicSize} {par : Params} {r : Region} {a : Word}
    (h : Access par .atomic r a z.bytes) : checkAccess par .atomic a z.size.bytes = .ok r := by
  rw [z.bytes_size]; exact checkAccess_of_access z.bytes_pos h

/-! ### The operations on words and on numbers -/

/-- An operation at every width: `onWords_w` and `onWords_dw` tie it to the operation of an instruction. -/
def RmwOp.onBits (n : Nat) : RmwOp → BitVec n → BitVec n → BitVec n
  | .add => (· + ·)
  | .or => (· ||| ·)
  | .and => (· &&& ·)
  | .xor => (· ^^^ ·)

theorem RmwOp.onWords_w (op : RmwOp) : op.onWords .w = on32 (op.onBits 32) := by cases op <;> rfl

theorem RmwOp.onWords_dw (op : RmwOp) : op.onWords .dw = op.onBits 64 := by cases op <;> rfl

/-- On `n` bits that are `k` bytes, the operation is that of the claims (R251). -/
theorem RmwOp.toNat_onBits (op : RmwOp) {n k : Nat} (hk : 256 ^ k = 2 ^ n) (old v : BitVec n) :
    (op.onBits n old v).toNat = op.apply k old.toNat v.toNat := by
  have hv : v.toNat % 256 ^ k = v.toNat := hk ▸ Nat.mod_eq_of_lt v.isLt
  cases op with
  | add => rw [RmwOp.apply, hk]; exact BitVec.toNat_add old v
  | or => rw [RmwOp.apply, hv]; exact BitVec.toNat_or old v
  | and => rw [RmwOp.apply, hv]; exact BitVec.toNat_and old v
  | xor => rw [RmwOp.apply, hv]; exact BitVec.toNat_xor old v

/-- Only the low bytes of the register operand count (R251). -/
theorem RmwOp.apply_mod (op : RmwOp) (n old v : Nat) : op.apply n old (v % 256 ^ n) = op.apply n old v := by
  cases op <;> simp [RmwOp.apply]

/-- The 32-bit operation sees the number of its old value and the low half of the register operand (R251). -/
theorem on32_ofNat (f : BitVec 32 → BitVec 32 → BitVec 32) (old : Nat) (v : Word) :
    on32 f (BitVec.ofNat 64 old) v = BitVec.ofNat 64 (f (BitVec.ofNat 32 old) (low32 v)).toNat := by
  rw [on32, zext64_eq_ofNat, low32, BitVec.setWidth_ofNat_of_le (by decide)]

/-- An instruction's operation on an old value of its size is that of the claims (R251). -/
theorem RmwOp.onWords_ofNat (op : RmwOp) (z : AtomicSize) {old : Nat} (h : old < 256 ^ z.bytes) (v : Word) :
    op.onWords z (BitVec.ofNat 64 old) v = BitVec.ofNat 64 (op.apply z.bytes old v.toNat) := by
  cases z with
  | w =>
    have hold : (BitVec.ofNat 32 old).toNat = old := Nat.mod_eq_of_lt h
    have hlow : (low32 v).toNat = v.toNat % 256 ^ 4 := toNat_low32 v
    rw [op.onWords_w, on32_ofNat, op.toNat_onBits (k := 4) rfl, hold, hlow, op.apply_mod]; rfl
  | dw =>
    have hold : (BitVec.ofNat 64 old).toNat = old := Nat.mod_eq_of_lt h
    refine eq_ofNat_of_toNat_eq ?_
    rw [op.onWords_dw, op.toNat_onBits (k := 8) rfl, hold]; rfl

/-- An exchange stores the low bytes of the register operand, whatever the old value (R270, R271). -/
theorem AtomicSize.exchanged_eq (z : AtomicSize) (old v : Word) :
    z.exchanged old v = BitVec.ofNat 64 (v.toNat % 256 ^ z.bytes) := by
  cases z with
  | w => exact (zext64_eq_ofNat _).trans (congrArg _ (toNat_low32 v))
  | dw => exact eq_ofNat_of_toNat_eq (Nat.mod_eq_of_lt v.isLt).symm

/-! ### The fetching forms -/

/-- An instruction that stores the number `x` for the old value and fetches that value (R252). -/
theorem fetches_of_exec {i : Instr} {z : AtomicSize} {F : Word → Word → Word} {s : State} {dst : Reg} {src : GReg}
    {off : BitVec 16} {base v : Word} {r : Region} {x : Nat} (hi : exec i = atomicFetch z.size F dst src off)
    (hb : Holds s dst base) (hv : Holds s (.gpr src) v) (ha : Access s.par .atomic r (effAddr base off) z.bytes)
    (hF : F (BitVec.ofNat 64 (s.accessValue r (effAddr base off) z.bytes)) v = BitVec.ofNat 64 x) :
    ∃ t, exec i s = .next t ∧ StoredAt s t (effAddr base off) z.bytes x ∧
      t = s.afterAtomic t r (effAddr base off) z.bytes (s.accessValue r (effAddr base off) z.bytes) (some x)
        (s.regs.set src (some (BitVec.ofNat 64 (s.accessValue r (effAddr base off) z.bytes)))) := by
  have hexec := atomicFetch_ok z.size F (read_of_holds hb) (read_of_holds hv) (checkAccess_of_atomicAccess ha)
  rw [← hi, z.bytes_size, valueAt_eq, hF] at hexec
  exact ⟨_, hexec.trans (congrArg _ (advance_put_rmwState s r _ _ (some x) src)),
    storedAt_afterAtomic s r _ z.bytes_le_eight .., rfl⟩

/-! ### Compare and exchange -/

/-- What a compare and exchange stores, of the old value, R0 and src: the low bytes of src, or nothing (R272, R273). -/
def exchangedIf (n old c v : Nat) : Option Nat := if old = c % 256 ^ n then some (v % 256 ^ n) else none

/-- The comparison of words is that of the numbers they hold. -/
theorem exchangedIf_ofNat {n old : Nat} (hn : n ≤ 8) (h : old < 256 ^ n) (c v : Word) :
    (if BitVec.ofNat 64 old = lowBytes n c then some (lowBytes n v) else none) =
      (exchangedIf n old c.toNat v.toNat).map (BitVec.ofNat 64) := by
  have hc : BitVec.ofNat 64 old = lowBytes n c ↔ old = c.toNat % 256 ^ n := by
    rw [lowBytes_eq]; exact ofNat_eq_ofNat_iff hn h (Nat.mod_lt _ (Nat.pow_pos (by decide)))
  rw [exchangedIf, apply_ite (Option.map _)]; exact if_congr hc rfl rfl

/-- The next state of a compare and exchange (R272, R273). -/
theorem exec_compareExchangeOf_next {z : AtomicSize} {s : State} {dst src : Reg} {off : BitVec 16} {base v c : Word}
    {r : Region} (hb : Holds s dst base) (hv : Holds s src v) (h0 : Holds s (.gpr .r0) c)
    (ha : Access s.par .atomic r (effAddr base off) z.bytes) {new : Option Nat}
    (hnew : exchangedIf z.bytes (s.accessValue r (effAddr base off) z.bytes) c.toNat v.toNat = new) :
    exec (compareExchangeOf z dst src off) s = .next
      (s.afterAtomic (s.storeNew (effAddr base off) z.bytes (new.map (BitVec.ofNat 64))) r (effAddr base off) z.bytes
        (s.accessValue r (effAddr base off) z.bytes) new
        (s.regs.set .r0 (some (BitVec.ofNat 64 (s.accessValue r (effAddr base off) z.bytes))))) := by
  rw [exec_compareExchangeOf, atomicCmpxchg_ok z.size (read_of_holds hb) (read_of_holds hv) (read_of_holds h0)
    (checkAccess_of_atomicAccess ha), z.bytes_size, valueAt_eq, exchangedIf_ofNat z.bytes_le_eight (accessValue_lt ..), hnew,
    advance_put_rmwState]

/-! ### The statements settled -/

/-- Settles O53: the operation on words is that on numbers, and no register is written. -/
theorem atomicSimple : Obligations.AtomicSimple := by
  intro s z op dst src off base v r hb hv ha
  have hexec := atomicPlain_ok z.size (op.onWords z) (read_of_holds hb) (read_of_holds hv) (checkAccess_of_atomicAccess ha)
  rw [← exec_simpleOf, z.bytes_size, valueAt_eq, op.onWords_ofNat z (accessValue_lt ..)] at hexec
  exact ⟨_, hexec.trans (congrArg _ (advance_rmwState s r _ _ (some _))),
    storedAt_afterAtomic s r _ z.bytes_le_eight .., rfl⟩

/-- Settles O54: the fetching forms of the operations. -/
theorem atomicFetchResult : Obligations.AtomicFetch := fun _ z op dst src off _ v _ hb hv ha =>
  fetches_of_exec (exec_fetchOf z op dst src off) hb hv ha (op.onWords_ofNat z (accessValue_lt ..) v)

/-- Settles O55: an exchange fetches, and stores the low bytes of src. -/
theorem atomicExchange : Obligations.AtomicExchange := by
  intro s z dst src off base v r hb hv ha
  obtain ⟨t, hexec, hstored, ht⟩ := fetches_of_exec (exec_exchangeOf z dst src off) hb hv ha (z.exchanged_eq _ v)
  exact ⟨t, hexec, hstored.of_mod (Nat.mod_mod ..), ht⟩

/-- Settles O56: the old value is the low bytes of R0, or nothing is stored. -/
theorem atomicCompareExchange : Obligations.AtomicCompareExchange := by
  intro s z dst src off base v c r hb hv h0 ha
  by_cases heq : s.accessValue r (effAddr base off) z.bytes = c.toNat % 256 ^ z.bytes
  · exact ⟨_, exec_compareExchangeOf_next hb hv h0 ha (if_pos heq), fun _ =>
      ⟨(storedAt_afterAtomic s r _ z.bytes_le_eight ..).of_mod (Nat.mod_mod ..), rfl⟩, fun hne => absurd heq hne⟩
  · exact ⟨_, exec_compareExchangeOf_next hb hv h0 ha (if_neg heq), fun h => absurd h heq, fun _ => ⟨rfl, rfl⟩⟩

end Sys2Proof.Machine
end

section
/-! The statement about the legacy packet loads (45_imm64_legacy.md): their opcodes decode to instructions that have no
meaning but the refusal. The settled statement stands at the end. -/

namespace Sys2Proof

open Machine

/-- An opcode of the legacy packet loads decodes, with any fields, to one of them (R282, R283; log 10). -/
theorem decodeFields_legacy (neg : NegReading) {f : Fields} (second : Option Word) (h : f.opcode.toNat ∈ legacyOpcodes) :
    ∃ i, decodeFields neg f second = .ok i ∧ shape i = .legacy := by
  unfold decodeFields
  generalize f.opcode.toNat = n at h
  fin_cases h <;> exact ⟨_, rfl, rfl⟩

/-- The instruction at a slot is decoded from the word there and the word after it (R81). -/
theorem decodeWords_drop (neg : NegReading) {ws : List Word} {n : Nat} {w : Word} (h : ws[n]? = some w) :
    decodeWords neg (ws.drop n) = decode neg w ws[n + 1]? := by
  obtain ⟨hn, rfl⟩ := List.getElem?_eq_some_iff.1 h
  rw [List.drop_eq_getElem_cons hn, decodeWords, List.head?_drop]

end Sys2Proof

namespace Sys2Proof.Machine

/-- A legacy packet load is refused in every state (R282, R283, R305). -/
theorem exec_of_shape_legacy {i : Instr} (h : shape i = .legacy) (s : State) :
    exec i s = .refused (.word .legacyPacketAccess) := by
  rw [exec_eq_run, h]; rfl

/-! ### The statement settled -/

/-- Settles O18: the eight instructions are of the shape that is refused, and so is what their opcodes decode to. -/
theorem legacyRefused : Obligations.LegacyRefused := by
  refine ⟨fun s rest => ?_, fun s w hr h0 hw ho => ?_⟩
  · and_intros <;> exact exec_of_shape_legacy rfl s
  · obtain ⟨i, hd, hi⟩ := decodeFields_legacy s.par.negReading (f := Fields.ofWord w) s.par.program[s.pc.toNat + 1]?
      (by simpa using ho)
    rw [step_of_decodeWords hr h0 ((decodeWords_drop _ hw).trans hd), exec_of_shape_legacy hi]

end Sys2Proof.Machine
end

section
/-! The statements about steps, outcomes and faults (60_exceptions.md): what a step is that gives no next state, and the
three ways OUT can stand after one that does. The settled statements stand at the end. -/

namespace Sys2Proof.Machine

/-! ### Instructions raise no Host fault -/

theorem complete_ne_fault (s : State) (r : Except FaultInfo State) (f : Fault) : complete s r ≠ .fault f := by
  cases r <;> nofun

/-- No shared operation answers a Host fault: a fault of the machine is a next state (R300, R303; log 9). -/
theorem Shape.run_ne_fault (sh : Shape) (s : State) (f : Fault) : sh.run s ≠ .fault f := by
  cases sh with
  | negK complement negate dst imm =>
    simp only [Shape.run, Machine.negK]
    split
    · nofun
    · split
      · exact complete_ne_fault _ _ _
      · nofun
  | negX complement dst src =>
    simp only [Shape.run, Machine.negX]
    split
    · exact complete_ne_fault _ _ _
    · nofun
  | exit =>
    simp only [Shape.run, exitProgram]
    split
    · nofun
    · nofun
  | writeK | ja | lddw | legacy => nofun
  | _ => exact complete_ne_fault _ _ _

theorem exec_ne_fault (i : Instr) (s : State) (f : Fault) : exec i s ≠ .fault f :=
  exec_eq_run i ▸ (shape i).run_ne_fault s f

/-! ### When there is a step -/

/-- The words a step decodes are those of the program text from `pc` on (R81, R300). -/
theorem decodeWords_of_fetch {s : State} {w : Word} {second : Option Word} (hf : fetch s = some (w, second)) :
    decodeWords s.par.negReading (s.par.program.drop s.pc.toNat) = decode s.par.negReading w second := by
  unfold fetch at hf
  split at hf
  · split at hf
    · cases hf; exact decodeWords_drop _ ‹_›
    · cases hf
  · cases hf

/-- A run that is over has no step (R306). -/
theorem step_of_not_running {s : State} (h : ¬Running s) : step s = .fault .runOver := by
  unfold Running at h
  unfold step
  split
  · rfl
  · rfl
  · exact absurd ‹_› h

theorem running_of_step_next {s t : State} (h : step s = .next t) : Running s :=
  not_not.1 fun hr => nomatch (step_of_not_running hr).symm.trans h

/-- A running state steps to a next state or to a refusal (R300, R302). -/
theorem step_ne_fault {s : State} (hr : Running s) (f : Fault) : step s ≠ .fault f := by
  cases hf : fetch s with
  | none => rw [step_of_fetch_none hr hf]; nofun
  | some words =>
    obtain ⟨w, second⟩ := words
    cases hd : decode s.par.negReading w second with
    | error k => rw [step_of_decode_error hr hf hd]; nofun
    | ok i =>
      have h0 : 0 ≤ s.pc := not_lt.1 fun hneg => nomatch (fetch_none.2 (.inl hneg)).symm.trans hf
      rw [step_of_decodeWords hr h0 ((decodeWords_of_fetch hf).trans hd)]
      exact exec_ne_fault i s f

/-! ### The outcome after an instruction and after a step -/

/-- `exit` alone has its kind in the table of R25. -/
theorem eq_exit_of_kind {neg : NegReading} {i : Instr} (h : (profile neg i).kind = .exit) : i = .exit := by
  cases i with
  | exit => rfl
  | _ => cases h

/-- An instruction keeps OUT, or faults and changes nothing else, or is of the kind of `exit` and ends the run with the
value of R0 (R300, R301, R303). -/
theorem Effect.out_cases {s t : State} {p : Profile} (h : Effect s p t) :
    t.out = s.out ∨ (∃ e, t = s.withFault e) ∨
      ∃ v, p.kind = .exit ∧ Holds s (.gpr .r0) v ∧ t = { s with out := .exited v } := by
  cases h with
  | fault e => exact .inr (.inl ⟨e, rfl⟩)
  | exit v hk hv => exact .inr (.inr ⟨v, hk, hv, rfl⟩)
  | result | wide | jump | branch | load | store | atomic | atomicResult | call =>
    exact .inl (by simp [State.wrote, State.goto])

/-- A step to a next state goes on running, or faults and changes nothing else, or runs `exit` and ends the run with the
value of R0 (R300, R301, R303). -/
theorem step_out_cases {s t : State} (h : step s = .next t) :
    Running t ∨ (∃ e, t = s.withFault e) ∨
      ∃ v, decodeWords s.par.negReading (s.par.program.drop s.pc.toNat) = .ok .exit ∧ Holds s (.gpr .r0) v ∧
        t = { s with out := .exited v } := by
  rcases step_next h with ⟨-, rfl⟩ | ⟨w, second, i, hf, hd, hi⟩
  · exact .inr (.inl ⟨_, rfl⟩)
  · rcases (exec_effect hi).out_cases with ho | hfault | ⟨v, hk, hv, rfl⟩
    · exact .inl (ho.trans (running_of_step_next h))
    · exact .inr (.inl hfault)
    · obtain rfl := eq_exit_of_kind hk
      exact .inr (.inr ⟨v, (decodeWords_of_fetch hf).trans hd, hv, rfl⟩)

/-! ### The statements settled -/

/-- Settles O17: a run that is over steps to `runOver`, and a running state to no Host fault. -/
theorem outcomesFinal : Obligations.OutcomesFinal := fun _ =>
  ⟨fun h hr => step_ne_fault hr _ h, step_of_not_running⟩

/-- Settles O23: of the three ways OUT can stand after a step, only one is a fault. -/
theorem faultsPrecise : Obligations.FaultsPrecise := by
  intro s t f h ho
  rcases step_out_cases h with hr | ⟨e, rfl⟩ | ⟨v, -, -, rfl⟩
  · exact nomatch hr.symm.trans ho
  · cases ho; rfl
  · cases ho

/-- Settles O24: of the three ways OUT can stand after a step, only `exit` ends the run with a value. -/
theorem onlyExitEnds : Obligations.OnlyExitEnds := by
  refine ⟨fun s t v h ho => ?_, fun s v hv => exitProgram_ok (read_of_holds hv), fun s hr hpc =>
    step_of_fetch_none hr (fetch_none.2 (.inr hpc.ge))⟩
  rcases step_out_cases h with hr | ⟨e, rfl⟩ | ⟨v', hd, hv, rfl⟩
  · exact nomatch hr.symm.trans ho
  · cases ho
  · cases ho; exact ⟨hd, hv, rfl⟩

/-- Settles O16: within the program the step decodes the words from `pc` on. -/
theorem refusedWordHasNoStep : Obligations.RefusedWordHasNoStep := by
  intro s k hr h0 hlt hd
  cases hf : fetch s with
  | none => rcases fetch_none.1 hf with hpc | hpc <;> omega
  | some words => exact step_of_decode_error hr hf ((decodeWords_of_fetch hf).symm.trans hd)

end Sys2Proof.Machine
end

section
/-! The statement about the host's placed word (70_reset_and_hazards.md): the words at and after `pc` once the host has
placed one instruction there, and the reading of its bits as a decoding of those words. The settled statement stands at
the end. -/

namespace Sys2Proof

/-- A table word is read by decoding its low word, with the next word as the second (R81). -/
theorem decodeTableWord_eq_some {nbits w : Nat} {i : Instr} :
    decodeTableWord nbits w = some i ↔
      decode .literal (BitVec.ofNat 64 (w % 2 ^ nbits)) (some (BitVec.ofNat 64 (w % 2 ^ nbits / 2 ^ 64))) = .ok i := by
  unfold decodeTableWord
  dsimp only
  split
  next hd => rw [hd, Option.some.injEq, Except.ok.injEq]
  next hd => rw [hd]; simp only [reduceCtorEq]

end Sys2Proof

namespace Sys2Proof.Machine

/-! ### The state with a placed word -/

theorem State.withFetchWord_running (s : State) (nbits w : Nat) : Running (s.withFetchWord nbits w) := rfl

@[simp] theorem State.withFetchWord_pc (s : State) (nbits w : Nat) : (s.withFetchWord nbits w).pc = s.pc.toNat := rfl

@[simp] theorem State.withFetchWord_negReading (s : State) (nbits w : Nat) :
    (s.withFetchWord nbits w).par.negReading = s.par.negReading := rfl

/-- The slot `pc` names holds the low word of the placed bits: the second store, at the next slot, keeps it (R330). -/
theorem State.withFetchWord_program_first (s : State) (nbits w : Nat) :
    (s.withFetchWord nbits w).par.program[s.pc.toNat]? = some (BitVec.ofNat 64 (w % 2 ^ nbits)) := by
  have hkept := setSlot_get_ne (setSlot s.par.program s.pc.toNat (BitVec.ofNat 64 (w % 2 ^ nbits))) (s.pc.toNat + 1)
    s.pc.toNat (BitVec.ofNat 64 (w % 2 ^ nbits / 2 ^ 64)) (Nat.lt_succ_self _)
  rwa [setSlot_get] at hkept

/-- The slot after `pc` holds the next word of the placed bits (R72, R330). -/
theorem State.withFetchWord_program_second (s : State) (nbits w : Nat) :
    (s.withFetchWord nbits w).par.program[s.pc.toNat + 1]? = some (BitVec.ofNat 64 (w % 2 ^ nbits / 2 ^ 64)) :=
  setSlot_get _ _ _

/-- From the slot `pc` names on, the program decodes to the placed instruction (R81, R330). -/
theorem State.withFetchWord_decodeWords {s : State} {nbits w : Nat} {i : Instr} (hn : s.par.negReading = .literal)
    (hd : decodeTableWord nbits w = some i) :
    decodeWords (s.withFetchWord nbits w).par.negReading
      ((s.withFetchWord nbits w).par.program.drop (s.withFetchWord nbits w).pc.toNat) = .ok i := by
  rw [s.withFetchWord_pc, Int.toNat_natCast, decodeWords_drop _ (s.withFetchWord_program_first nbits w),
    s.withFetchWord_program_second nbits w, s.withFetchWord_negReading, hn]
  exact decodeTableWord_eq_some.1 hd

/-! ### The statement settled -/

/-- Settles O14: the state runs, its `pc` is not negative, and the words there decode to the placed instruction. -/
theorem fetchWordRuns : Obligations.FetchWordRuns := fun s nbits w _ hn hd =>
  step_of_decodeWords (s.withFetchWord_running nbits w) (Int.natCast_nonneg s.pc.toNat)
    (s.withFetchWord_decodeWords hn hd)

end Sys2Proof.Machine
end
